-- ==== Sys2Proof/Word.lean ====
section
/-! DEFINITION. The word types of the part: bytes, 32-bit registers, 64-bit values, store lines, vector
registers, accumulator words and bundles (00_scope.md R7, R8; 03 Table 03.5; 05 R181).
-/
namespace Sys2Proof

/-- One byte of memory. -/
abbrev Byte := BitVec 8
/-- A set-up register (00_scope.md R8: every register is 32 bits wide). -/
abbrev Word := BitVec 32
/-- A 64-bit value: an X register, TREAD, an epoch, a CRC state. -/
abbrev Word64 := BitVec 64
/-- One 512-byte line, byte 0 lowest (R8, R89). -/
abbrev Line := BitVec 4096
/-- A V register: 64 lanes of 32 bits, lane 0 lowest (03 Table 03.5). -/
abbrev VReg := BitVec 2048
/-- One accumulator word (04 R160). -/
abbrev AccWord := BitVec 192
/-- One bundle (05 R181). -/
abbrev Bundle := BitVec 256
/-- One frame: an RS(272,256) codeword of 2,720 line bits (09 R371). -/
abbrev Codeword := BitVec 2720
/-- The 320-byte message of a frame (09 R372). -/
abbrev FrameMsg := BitVec 2560

end Sys2Proof
end

