-- ==== Sys2Proof/Fields.lean ====
section
/-! DEFINITION. The operand types of the commands: the fields of a gallery operation as the tables of
05_gallery_instruction_set.md name them, and the decoded structures that descriptors, parcels, books and pins
bring to the part. Syntax.lean gives one command constructor per row of the table over these types.
-/
namespace Sys2Proof

/-! ### Gallery operations (05 Tables 05.4 to 05.11) -/

/-- Vector operations in the arithmetic form of Table 05.7 (05 Table 05.6). -/
inductive VOp where
  | fadd | fsub | fmul | fma | fmin | fmax | fcmpeq | fcmplt | fcmple | fneg | fabs
  | iadd | isub | imul | and | or | xor | shl | shr | sar | icmpeq | icmplt | icmpltu
  | sel | mov | splat | rot | iota | vredadd | vredmax
  | rcp | div | sqrt | rsqrt | exp2 | log2
  deriving DecidableEq, Repr

/-- Vector operations in the conversion form of Table 05.7. -/
inductive CvOp where
  | cvtn | cvtw | cvti | cvtf
  deriving DecidableEq, Repr

/-- Two-operand address arithmetic (05 Table 05.11). -/
inductive XOp where
  | add | sub | and | mul | minu
  deriving DecidableEq, Repr

/-- Arithmetic form fields (05 Table 05.7). -/
structure VecF where
  vd : BitVec 6
  va : BitVec 6
  vb : BitVec 6
  vc : BitVec 6
  p : BitVec 3
  pn : Bool
  rnd : BitVec 3
  sat : Bool
  deriving DecidableEq, Repr

/-- Conversion form fields (05 Table 05.7). -/
structure CvtF where
  vd : BitVec 6
  va : BitVec 6
  fmt : BitVec 4
  pos : BitVec 3
  xk : BitVec 3
  adv : Bool
  p : BitVec 3
  pn : Bool
  rnd : BitVec 3
  sat : Bool
  deriving DecidableEq, Repr

/-- MLDT fields (05 Table 05.5). -/
structure MldtF where
  fmt : BitVec 4
  xt : BitVec 4
  xs : BitVec 4
  scaled : Bool
  tr : Bool
  inc : Bool
  deriving DecidableEq, Repr

/-- MMA fields (05 Table 05.5); `n1` is n − 1. -/
structure MmaF where
  bank : BitVec 2
  fmt : BitVec 4
  xr : BitVec 4
  xs : BitVec 4
  scaled : Bool
  swap : Bool
  inc : Bool
  n1 : BitVec 8
  rv : Bool
  vr : BitVec 6
  deriving DecidableEq, Repr

/-- MCLR fields (05 Table 05.5). -/
structure MclrF where
  bank : BitVec 2
  mode : Bool
  ea : BitVec 16
  deriving DecidableEq, Repr

/-- MFILL fields (05 Table 05.5). -/
structure MfillF where
  bank : BitVec 2
  mode : Bool
  ea : BitVec 16
  xa : BitVec 4
  inc : Bool
  deriving DecidableEq, Repr

/-- MSPILL fields (05 Table 05.5). -/
structure MspillF where
  bank : BitVec 2
  xa : BitVec 4
  inc : Bool
  deriving DecidableEq, Repr

/-- MRD fields (05 Table 05.5); `t` is the tensor base exponent T. -/
structure MrdF where
  bank : BitVec 2
  vd : BitVec 6
  dfmt : BitVec 2
  rnd : BitVec 3
  sat : Bool
  clr : Bool
  pos : Bool
  xk : BitVec 3
  adv : Bool
  t : BitVec 16
  deriving DecidableEq, Repr

/-- Load slot fields (05 Table 05.8). -/
structure LdF where
  vd : BitVec 6
  port : Bool
  xa : BitVec 4
  inc : Bool
  imm : BitVec 12
  deriving DecidableEq, Repr

/-- Store slot fields (05 Table 05.8). -/
structure StF where
  vs : BitVec 6
  xa : BitVec 4
  inc : Bool
  p : BitVec 3
  pn : Bool
  imm : BitVec 5
  deriving DecidableEq, Repr

/-- CSEND fields (05 Table 05.9). -/
structure CsendF where
  dir : Bool
  xa : BitVec 4
  xm : BitVec 4
  inc : Bool
  deriving DecidableEq, Repr

/-- AWR, ARD, SWR and SRD fields: `side` is the alcove side or the compute die (05 Table 05.9). -/
structure SideF where
  side : BitVec 2
  xa : BitVec 4
  inc : Bool
  deriving DecidableEq, Repr

/-- BAYW and BAYR fields (05 Table 05.9). -/
structure BayF where
  xa : BitVec 4
  xb : BitVec 4
  inc : Bool
  incb : Bool
  deriving DecidableEq, Repr

/-- HLD and HST fields (05 Table 05.9); `n1` is n − 1. -/
structure HbmF where
  xs : BitVec 4
  xh : BitVec 4
  n1 : BitVec 5
  win : BitVec 4
  inc : Bool
  deriving DecidableEq, Repr

/-- CFETCH fields (05 Table 05.9). -/
structure CfetchF where
  xh : BitVec 4
  n1 : BitVec 6
  inc : Bool
  deriving DecidableEq, Repr

/-- FPA fields (05 Table 05.9). -/
structure FpaF where
  f : BitVec 2
  xa : BitVec 4
  n1 : BitVec 6
  inc : Bool
  deriving DecidableEq, Repr

/-- XSET fields (05 Table 05.11). -/
structure XsetF where
  xd : BitVec 4
  chunk : BitVec 2
  imm : BitVec 16
  keep : Bool
  deriving DecidableEq, Repr

/-- XADDI fields (05 Table 05.11). -/
structure XaddiF where
  xd : BitVec 4
  xa : BitVec 4
  imm : BitVec 16
  deriving DecidableEq, Repr

/-- XADD, XSUB, XAND, XMUL and XMINU fields (05 Table 05.11). -/
structure X3F where
  xd : BitVec 4
  xa : BitVec 4
  xb : BitVec 4
  deriving DecidableEq, Repr

/-- XSHLI and XSHRI fields (05 Table 05.11). -/
structure XshF where
  xd : BitVec 4
  xa : BitVec 4
  sh : BitVec 6
  deriving DecidableEq, Repr

/-- XMOVV fields (05 Table 05.11). -/
structure XmovvF where
  xd : BitVec 4
  va : BitVec 6
  lane : BitVec 6
  deriving DecidableEq, Repr

/-- XLC fields (05 Table 05.11). -/
structure XlcF where
  xd : BitVec 4
  level : BitVec 2
  deriving DecidableEq, Repr

/-- PSETN fields (05 Table 05.11). -/
structure PsetnF where
  pd : BitVec 3
  n : BitVec 7
  deriving DecidableEq, Repr

/-- PAND, POR and PNOT fields (05 Table 05.11); PNOT does not use `pb`. -/
structure P3F where
  pd : BitVec 3
  pa : BitVec 3
  pb : BitVec 3
  deriving DecidableEq, Repr

/-- TOKEN fields (05 Table 05.11). -/
structure TokenF where
  flight : BitVec 12
  delta : BitVec 8
  fab : Bool
  port : BitVec 5
  deriving DecidableEq, Repr

/-- BVAL fields (05 Table 05.11). -/
structure BvalF where
  xa : BitVec 4
  delta : BitVec 8
  fab : Bool
  port : BitVec 5
  deriving DecidableEq, Repr

/-- LAND fields (05 Table 05.11): `w4` is W / 4 − 1 and `d4` is (D − A) / 4. -/
structure LandF where
  w4 : BitVec 11
  d4 : BitVec 12
  commit : Bool
  quiesce : Bool
  branch : Bool
  last : Bool
  deriving DecidableEq, Repr

/-- FPOUT fields (05 Table 05.11). -/
structure FpoutF where
  f : BitVec 2
  xa : BitVec 4
  tag : BitVec 16
  inc : Bool
  deriving DecidableEq, Repr

/-- One gallery operation: what a non-empty slot of a bundle holds (05 R182). -/
inductive GOp where
  | mldt (f : MldtF)
  | mma (f : MmaF)
  | mclr (f : MclrF)
  | mfill (f : MfillF)
  | mspill (f : MspillF)
  | mrd (f : MrdF)
  | vec (o : VOp) (f : VecF)
  | cvt (o : CvOp) (f : CvtF)
  | ldh (f : LdF)
  | ldl (f : LdF)
  | ldx (f : LdF)
  | sth (f : StF)
  | stl (f : StF)
  | stx (f : StF)
  | csend (f : CsendF)
  | awr (f : SideF)
  | ard (f : SideF)
  | swr (f : SideF)
  | srd (f : SideF)
  | bayw (f : BayF)
  | bayr (f : BayF)
  | hld (f : HbmF)
  | hst (f : HbmF)
  | cfetch (f : CfetchF)
  | fpa (f : FpaF)
  | loop (c1 : BitVec 16)
  | xset (f : XsetF)
  | xaddi (f : XaddiF)
  | x3 (o : XOp) (f : X3F)
  | xshli (f : XshF)
  | xshri (f : XshF)
  | xmovv (f : XmovvF)
  | xlc (f : XlcF)
  | psetn (f : PsetnF)
  | pand (f : P3F)
  | por (f : P3F)
  | pnot (f : P3F)
  | token (f : TokenF)
  | bval (f : BvalF)
  | land (f : LandF)
  | fpi (f : BitVec 2)
  | fpout (f : FpoutF)
  deriving DecidableEq, Repr

/-! ### What the environment brings to a read of protected memory -/

/-- Where a check error lies (03 R92, R93; 06 R236, R267). `gi` is a global gallery index. -/
inductive UpSite where
  | store (gi line word : Nat)
  | istore (gi pos word : Nat)
  | acc (gi bank j : Nat)
  | alcove (ph side : Nat)
  | hbm (line word : Nat)
  deriving DecidableEq, Repr

/-- A check error that has arisen and waits for the next read of its place. `ce`: correctable. `die`: corrected by
the stack's on-die ECC (06 Table 06.7). Log 13 (DESIGN CHOICE). -/
structure Upset where
  site : UpSite
  ce : Bool
  die : Bool
  deriving DecidableEq, Repr

/-! ### Control parcels (08 Table 08.11, 12 Table 12.3) -/

/-- A hold report (08 Table 08.11). -/
structure HoldReport where
  chip : BitVec 16
  cause : BitVec 8
  ordinal : Word
  e : Word64
  ready : Word64
  deriving DecidableEq, Repr

/-- A release (08 Table 08.11). -/
structure Release where
  ordinal : Word
  h : Word
  abort : Bool
  deriving DecidableEq, Repr

/-- A commit report (12 Table 12.3). -/
structure CommitReport where
  chip : BitVec 16
  status : BitVec 8
  snapshot : BitVec 8
  ordinal : Word
  cause : BitVec 16
  ph : BitVec 8
  g : BitVec 8
  records : Word
  deriving DecidableEq, Repr

/-- A commit outcome (12 Table 12.3). -/
structure CommitOutcome where
  ordinal : Word
  abort : Bool
  save : Bool
  chip : BitVec 16
  cause : BitVec 16
  deriving DecidableEq, Repr

/-- A discovery beacon (07 Table 07.10), field by field as its 16 bytes hold them. -/
structure Beacon where
  chip : BitVec 16
  arcade : BitVec 8
  index : BitVec 8
  half : BitVec 8
  version : BitVec 8
  grade : BitVec 8
  linkmap : BitVec 8
  role : BitVec 8
  res : BitVec 8
  seq : BitVec 16
  install : Word
  deriving DecidableEq, Repr

/-- The storage header of a class D parcel (08 Table 08.12) with its data. -/
structure StorageParcel where
  addr : Word64
  tag : Word
  len : BitVec 16
  status : BitVec 8
  data : List Byte
  deriving DecidableEq, Repr

/-! ### Descriptors (11 Tables 11.5 to 11.12) -/

/-- The descriptor header (11 Table 11.5), with the queue whose ring held the descriptor and `res`, true when a
byte that the layout does not name is not zero. A descriptor whose opcode Table 11.6 reserves names no row of its own: `badOp` is the
reserved opcode that a descriptor holds in place of its row's. Log 114 (DESIGN CHOICE). -/
structure DescHdr where
  queue : Fin 16
  flags : BitVec 8
  tag : Word
  res : Bool
  badOp : Option (BitVec 8) := none
  deriving DecidableEq, Repr

/-- A DMA or storage descriptor (11 Table 11.12). -/
structure DmaDesc where
  addr : Word64
  off : Word64
  len : Word
  chan : BitVec 8
  crcMode : BitVec 2
  expected : Word64
  gateOrd : Word
  gateSlice : BitVec 8
  commitOnly : Bool
  tokEn : Bool
  tokFlight : BitVec 12
  tokOrd : Word
  deriving DecidableEq, Repr

/-- The slice admission record (07 Table 07.12); `res`: a reserved byte is not zero. -/
structure AdmitRec where
  slice : BitVec 8
  k : BitVec 8
  topo : BitVec 8
  base : BitVec 16
  master : BitVec 16
  a : BitVec 8
  b : BitVec 8
  c : BitVec 8
  lead : Word
  rackCount : BitVec 16
  racks : List Byte
  res : Bool
  deriving DecidableEq, Repr

/-! ### Flight binaries (10 Tables 10.4 to 10.6; 06 Table 06.5; 08 Table 08.6) -/

/-- A landing table entry (10 Table 10.6). -/
structure LandEnt where
  a : Word
  w4 : BitVec 16
  d4 : BitVec 16
  flags : BitVec 8
  res : Bool
  deriving DecidableEq, Repr

/-- One share: its virtual hall, the HBM offsets at which its 16 streams are placed, the streams, the windows and
the adjacency list (10 R418, R419; 05 R202). -/
structure Share where
  vh : BitVec 16
  code : List Nat
  streams : List (List Bundle)
  windows : List (Nat × Nat)
  sides : List Nat
  dies : List Nat
  deriving DecidableEq, Repr

/-- The contents of a section of a flight binary whose byte layout the spec does not give (10 R418): a share, or a commit region list as
stacks, bases and lengths. Log 15 (DESIGN CHOICE). -/
inductive SecBody where
  | share (s : Share)
  | cregs (l : List (Nat × Nat × Nat))
  deriving DecidableEq, Repr

/-- A flight binary (10 R418): the byte image, and by section index the contents of its shares and commit region lists. Log 15 (DESIGN
CHOICE). -/
structure Binary where
  image : List Byte
  bodies : List (Nat × SecBody)
  deriving DecidableEq, Repr

/-- A book entry (11 Table 11.11) with its binary and its lists. -/
structure BookEntry where
  flight : BitVec 16
  need : BitVec 16
  len : Word
  bin : Binary
  preds : List (BitVec 16)
  succs : List (BitVec 16)
  res : Bool
  deriving DecidableEq, Repr

/-! ### Timetables and memory requests -/

/-- The unit of a rejoin (12 R499): a gallery, or a hall leaving asleep. -/
inductive RejoinUnit where
  | hall (ph : Fin 64)
  | gallery (ph : Fin 64) (g : Fin 16)
  deriving DecidableEq, Repr

/-- What a test walk found (12 R495): the first phase that failed, 0 for none, and the corrected errors seen. -/
structure WalkResult where
  phase : BitVec 3
  corrected : Nat
  deriving DecidableEq, Repr

/-- What the detector of a failed regulator saw (13 R516). -/
inductive RegFailure where
  | voltage | current | stage | shortfall
  deriving DecidableEq, Repr

/-- The two supplies (13 R510). -/
inductive Supply where
  | v54 | v12
  deriving DecidableEq, Repr

/-- The events of 11 R441. -/
inductive HostReset where
  | flr | conventional | linkLoss
  deriving DecidableEq, Repr

/-- The healthy lanes that each end reports in a training (09 R400), data lanes 0 to 15 of a link (the higher
numbers are the second port of a bonded pair), the spares in each direction, the far end's identity (09 R370, R399, R401), whether this end
drew the lower number, the link delay L at the end of the training (09 R388), and the resume TREAD. -/
structure TrainReport where
  version : BitVec 4
  rxOk : BitVec 16
  txOk : BitVec 16
  spareRx : BitVec 2
  spareTx : BitVec 2
  farChip : BitVec 16
  farArcade : BitVec 8
  farIndex : BitVec 8
  farFresh : Bool
  draw : Bool
  delay : BitVec 16
  resume : Word64
  deriving DecidableEq, Repr

/-- What an installation section holds (14 Table 14.2): chip number, installation identifier, the installation map (entries
keyed port × 2 + half: chip, arcade, index, half), the extents of the installation, and the SMBus target address. -/
structure Inst where
  chip : BitVec 16 := 0xFFFF
  install : Word := 0
  map : List (Nat × Nat × Nat × Nat × Nat) := []
  ex : Nat := 1
  ey : Nat := 1
  ez : Nat := 1
  smbAddr : Byte := 0x4C
  deriving DecidableEq, Repr, Inhabited

/-- What boot finds (14 R546, R547): whether flash, PUF, sealed record, factory section, identity key, the image of each slot and
the installation section prove valid, the root slots and versions that they name, the reference, the straps, and the seal loop. -/
structure BootFind where
  flash : Bool
  puf : Bool
  record : Bool
  factory : Bool
  identity : Bool
  slotA : Bool
  slotB : Bool
  rootF : BitVec 2
  rootA : BitVec 2
  rootB : BitVec 2
  verA : Word
  verB : Word
  install : Bool
  reference : Bool
  linkmapStrap : Bool
  roleStrap : Bool
  flashvStrap : Bool
  sealOpen : Bool
  deriving DecidableEq, Repr

/-- Sensor values of one reading (13 R528), in whole °C. -/
structure Temps where
  halls : List Nat
  arcades : List Nat
  atrium : Nat
  deriving DecidableEq, Repr

end Sys2Proof
end

