-- ==== Sys2Proof/Syntax.lean ====
section
/-! DEFINITION. The commands of the part: one constructor per row of the opcode table. A command of a gallery
operation is that operation's issue on gallery `g` of physical hall `ph`. `ups` lists check errors that have arisen
in the memories the command may read (03 R92, R93; 06 R236, R267).
-/
namespace Sys2Proof

/-- The commands of the part. -/
inductive Instr where
  /-- ISSUE_GROUP (R41): A hall issues issue group k at the latest of its scheduled tread, the previous issue plus 1, and the tread at which every bundle of the group is ready. -/
  | issueGroup (ph : Fin 64) (ups : List Upset)
  /-- BOOST_APPLY (R519): On a boost request the regulator raises vcode by 10 steps and reaches the new voltage within 128 treads. -/
  | boostApply (ph : Fin 64)
  /-- OPERATION_COMPLETE (R186): An operation writes its results at its completion, releasing the bundles that wait on them. -/
  | operationComplete (ph : Fin 64) (g : Fin 16) (k : Nat)
  /-- MLDT (R204): Load the shadow weight tile from store in the named format, with optional scales and transpose. -/
  | mldt (ph : Fin 64) (g : Fin 16) (f : MldtF) (ups : List Upset)
  /-- MMA (R205): Multiply n input rows by the active tile and add the products into an accumulator bank under its mode. -/
  | mma (ph : Fin 64) (g : Fin 16) (f : MmaF) (ups : List Upset)
  /-- MCLR (R207): Clear an accumulator bank and set its mode and alignment exponent. -/
  | mclr (ph : Fin 64) (g : Fin 16) (f : MclrF)
  /-- MFILL (R207): Fill an accumulator bank from a 1,536-byte image in store. -/
  | mfill (ph : Fin 64) (g : Fin 16) (f : MfillF) (ups : List Upset)
  /-- MSPILL (R207): Write an accumulator bank's 1,536-byte image to store. -/
  | mspill (ph : Fin 64) (g : Fin 16) (f : MspillF) (ups : List Upset)
  /-- MRD (R208): Read an accumulator bank out to a V register with a single rounding, optionally clearing it. -/
  | mrd (ph : Fin 64) (g : Fin 16) (f : MrdF) (ups : List Upset)
  /-- FADD (R152): FP32 addition in each enabled lane. -/
  | fadd (ph : Fin 64) (g : Fin 16) (f : VecF)
  /-- FSUB (R152): FP32 subtraction in each enabled lane. -/
  | fsub (ph : Fin 64) (g : Fin 16) (f : VecF)
  /-- FMUL (R152): FP32 multiplication in each enabled lane. -/
  | fmul (ph : Fin 64) (g : Fin 16) (f : VecF)
  /-- FMA (R152): FP32 fused multiply-add with one rounding in each enabled lane. -/
  | fma (ph : Fin 64) (g : Fin 16) (f : VecF)
  /-- FMIN (R153): FP32 minimum, canonical NaN when either input is NaN. -/
  | fmin (ph : Fin 64) (g : Fin 16) (f : VecF)
  /-- FMAX (R153): FP32 maximum, canonical NaN when either input is NaN. -/
  | fmax (ph : Fin 64) (g : Fin 16) (f : VecF)
  /-- FCMPEQ (R152): Quiet FP32 equality compare into a predicate register. -/
  | fcmpeq (ph : Fin 64) (g : Fin 16) (f : VecF)
  /-- FCMPLT (R152): Signalling FP32 less-than compare into a predicate register. -/
  | fcmplt (ph : Fin 64) (g : Fin 16) (f : VecF)
  /-- FCMPLE (R152): Signalling FP32 less-or-equal compare into a predicate register. -/
  | fcmple (ph : Fin 64) (g : Fin 16) (f : VecF)
  /-- FNEG (R135): Invert the sign bit of each enabled lane with no flags. -/
  | fneg (ph : Fin 64) (g : Fin 16) (f : VecF)
  /-- FABS (R135): Clear the sign bit of each enabled lane with no flags. -/
  | fabs (ph : Fin 64) (g : Fin 16) (f : VecF)
  /-- IADD (R209): 32-bit integer addition modulo 2^32. -/
  | iadd (ph : Fin 64) (g : Fin 16) (f : VecF)
  /-- ISUB (R209): 32-bit integer subtraction modulo 2^32. -/
  | isub (ph : Fin 64) (g : Fin 16) (f : VecF)
  /-- IMUL (R209): 32-bit integer multiplication giving the low 32 bits. -/
  | imul (ph : Fin 64) (g : Fin 16) (f : VecF)
  /-- AND (R209): Bitwise AND of two vector registers. -/
  | and (ph : Fin 64) (g : Fin 16) (f : VecF)
  /-- OR (R209): Bitwise OR of two vector registers. -/
  | or (ph : Fin 64) (g : Fin 16) (f : VecF)
  /-- XOR (R209): Bitwise XOR of two vector registers. -/
  | xor (ph : Fin 64) (g : Fin 16) (f : VecF)
  /-- SHL (R209): Shift left of va by vb[4:0]. -/
  | shl (ph : Fin 64) (g : Fin 16) (f : VecF)
  /-- SHR (R209): Logical shift right of va by vb[4:0]. -/
  | shr (ph : Fin 64) (g : Fin 16) (f : VecF)
  /-- SAR (R209): Arithmetic shift right of va by vb[4:0]. -/
  | sar (ph : Fin 64) (g : Fin 16) (f : VecF)
  /-- ICMPEQ (R209): Integer equality compare into a predicate register. -/
  | icmpeq (ph : Fin 64) (g : Fin 16) (f : VecF)
  /-- ICMPLT (R209): Signed integer less-than compare into a predicate register. -/
  | icmplt (ph : Fin 64) (g : Fin 16) (f : VecF)
  /-- ICMPLTU (R209): Unsigned integer less-than compare into a predicate register. -/
  | icmpltu (ph : Fin 64) (g : Fin 16) (f : VecF)
  /-- SEL (R175): Select per lane between va and vb under a predicate. -/
  | sel (ph : Fin 64) (g : Fin 16) (f : VecF)
  /-- MOV (R209): Copy va into vd in enabled lanes. -/
  | mov (ph : Fin 64) (g : Fin 16) (f : VecF)
  /-- SPLAT (R209): Write the low 32 bits of an address register into every enabled lane. -/
  | splat (ph : Fin 64) (g : Fin 16) (f : VecF)
  /-- ROT (R209): Rotate the lanes of va by a 6-bit amount. -/
  | rot (ph : Fin 64) (g : Fin 16) (f : VecF)
  /-- IOTA (R209): Write the lane index into each enabled lane. -/
  | iota (ph : Fin 64) (g : Fin 16) (f : VecF)
  /-- CVTN (R212): Convert FP32 lanes to a narrow format and pack them at a position in vd. -/
  | cvtn (ph : Fin 64) (g : Fin 16) (f : CvtF)
  /-- CVTW (R212): Convert packed narrow elements exactly to FP32. -/
  | cvtw (ph : Fin 64) (g : Fin 16) (f : CvtF)
  /-- CVTI (R151): Convert FP32 to INT32 with rounding and saturation. -/
  | cvti (ph : Fin 64) (g : Fin 16) (f : CvtF)
  /-- CVTF (R149): Convert INT32 to FP32 rounded in the named mode. -/
  | cvtf (ph : Fin 64) (g : Fin 16) (f : CvtF)
  /-- VREDADD (R213): Pairwise tree sum of the 64 lanes written to every lane of vd. -/
  | vredadd (ph : Fin 64) (g : Fin 16) (f : VecF)
  /-- VREDMAX (R213): Pairwise tree maximum of the 64 lanes written to every lane of vd. -/
  | vredmax (ph : Fin 64) (g : Fin 16) (f : VecF)
  /-- RCP (R168): Function-unit reciprocal rounded once in RNE. -/
  | rcp (ph : Fin 64) (g : Fin 16) (f : VecF)
  /-- DIV (R168): Function-unit IEEE binary32 division. -/
  | div (ph : Fin 64) (g : Fin 16) (f : VecF)
  /-- SQRT (R168): Function-unit IEEE binary32 square root. -/
  | sqrt (ph : Fin 64) (g : Fin 16) (f : VecF)
  /-- RSQRT (R168): Function-unit reciprocal square root rounded once in RNE. -/
  | rsqrt (ph : Fin 64) (g : Fin 16) (f : VecF)
  /-- EXP2 (R170): Function-unit base-2 exponential by the fixed table algorithm. -/
  | exp2 (ph : Fin 64) (g : Fin 16) (f : VecF)
  /-- LOG2 (R171): Function-unit base-2 logarithm by the fixed table algorithm. -/
  | log2 (ph : Fin 64) (g : Fin 16) (f : VecF)
  /-- LDH (R214): Load 256 bytes from store into a V register. -/
  | ldh (ph : Fin 64) (g : Fin 16) (f : LdF) (ups : List Upset)
  /-- LDL (R214): Load 512 bytes from store into a pair of V registers. -/
  | ldl (ph : Fin 64) (g : Fin 16) (f : LdF) (ups : List Upset)
  /-- LDX (R214): Load 8 bytes from store into an address register. -/
  | ldx (ph : Fin 64) (g : Fin 16) (f : LdF) (ups : List Upset)
  /-- STH (R214): Store a V register to 256 bytes of store, skipping disabled lanes. -/
  | sth (ph : Fin 64) (g : Fin 16) (f : StF)
  /-- STL (R214): Store a pair of V registers to 512 bytes of store. -/
  | stl (ph : Fin 64) (g : Fin 16) (f : StF)
  /-- STX (R214): Store an address register to 8 bytes of store. -/
  | stx (ph : Fin 64) (g : Fin 16) (f : StF)
  /-- CSEND (R215): Send a store line on the corridor to the galleries named in a mask. -/
  | csend (ph : Fin 64) (g : Fin 16) (f : CsendF) (ups : List Upset)
  /-- AWR (R216): Write a store line into the outbound alcove of a side. -/
  | awr (ph : Fin 64) (g : Fin 16) (f : SideF) (ups : List Upset)
  /-- ARD (R216): Take the oldest entry of an inbound alcove into store. -/
  | ard (ph : Fin 64) (g : Fin 16) (f : SideF) (ups : List Upset)
  /-- SWR (R241): Write a store line into the stairwell buffer toward the mirror hall on another die. -/
  | swr (ph : Fin 64) (g : Fin 16) (f : SideF) (ups : List Upset)
  /-- SRD (R241): Take the oldest entry of the stairwell buffer from a peer die into store. -/
  | srd (ph : Fin 64) (g : Fin 16) (f : SideF)
  /-- BAYW (R217): Write a store line into a line of an arcade bay. -/
  | bayw (ph : Fin 64) (g : Fin 16) (f : BayF) (ups : List Upset)
  /-- BAYR (R217): Read a line of an arcade bay into store. -/
  | bayr (ph : Fin 64) (g : Fin 16) (f : BayF)
  /-- HLD (R218): Deliver n lines from HBM into store through a reserved slot. -/
  | hld (ph : Fin 64) (g : Fin 16) (f : HbmF)
  /-- HST (R218): Write n lines from store to HBM through a reserved slot. -/
  | hst (ph : Fin 64) (g : Fin 16) (f : HbmF) (ups : List Upset)
  /-- CFETCH (R219): Fetch the next bundles of the stream from HBM into the running area. -/
  | cfetch (ph : Fin 64) (g : Fin 16) (f : CfetchF)
  /-- FPA (R225): Feed n store lines byte by byte into a fingerprint CRC register. -/
  | fpa (ph : Fin 64) (g : Fin 16) (f : FpaF) (ups : List Upset)
  /-- LOOP (R194): Open a loop level with an immediate trip count. -/
  | loop (ph : Fin 64) (g : Fin 16) (c1 : BitVec 16)
  /-- XSET (R209): Set a 16-bit chunk of an address register. -/
  | xset (ph : Fin 64) (g : Fin 16) (f : XsetF)
  /-- XADDI (R209): Add an immediate to an address register. -/
  | xaddi (ph : Fin 64) (g : Fin 16) (f : XaddiF)
  /-- XADD (R209): Add two address registers. -/
  | xadd (ph : Fin 64) (g : Fin 16) (f : X3F)
  /-- XSUB (R209): Subtract two address registers. -/
  | xsub (ph : Fin 64) (g : Fin 16) (f : X3F)
  /-- XAND (R209): AND two address registers. -/
  | xand (ph : Fin 64) (g : Fin 16) (f : X3F)
  /-- XSHLI (R209): Shift an address register left by an immediate. -/
  | xshli (ph : Fin 64) (g : Fin 16) (f : XshF)
  /-- XSHRI (R209): Shift an address register logically right by an immediate. -/
  | xshri (ph : Fin 64) (g : Fin 16) (f : XshF)
  /-- XMUL (R209): Low 64 bits of the product of two address registers. -/
  | xmul (ph : Fin 64) (g : Fin 16) (f : X3F)
  /-- XMOVV (R209): Move one lane of a V register zero-extended into an address register. -/
  | xmovv (ph : Fin 64) (g : Fin 16) (f : XmovvF)
  /-- XMINU (R209): Unsigned minimum of two address registers. -/
  | xminu (ph : Fin 64) (g : Fin 16) (f : X3F)
  /-- XLC (R209): Read the iteration index of an open loop level. -/
  | xlc (ph : Fin 64) (g : Fin 16) (f : XlcF)
  /-- PSETN (R213): Set the low n bits of a predicate register. -/
  | psetn (ph : Fin 64) (g : Fin 16) (f : PsetnF)
  /-- PAND (R213): AND two predicate registers. -/
  | pand (ph : Fin 64) (g : Fin 16) (f : P3F)
  /-- POR (R213): OR two predicate registers. -/
  | por (ph : Fin 64) (g : Fin 16) (f : P3F)
  /-- PNOT (R213): Invert a predicate register. -/
  | pnot (ph : Fin 64) (g : Fin 16) (f : P3F)
  /-- TOKEN (R220): Emit a dependence token to the stair controllers or into a port's class C outbox. -/
  | token (ph : Fin 64) (g : Fin 16) (f : TokenF)
  /-- BVAL (R221): Emit a branch value for a landing ordinal locally or into a port outbox. -/
  | bval (ph : Fin 64) (g : Fin 16) (f : BvalF)
  /-- LAND (R222): Open a landing at the bundle's scheduled tread; agents stop and spend mandatory items. -/
  | land (ph : Fin 64) (g : Fin 16) (f : LandF)
  /-- FPI (R225): Initialise a fingerprint register. -/
  | fpi (ph : Fin 64) (g : Fin 16) (f : BitVec 2)
  /-- FPOUT (R225): Write a 32-byte fingerprint record to store. -/
  | fpout (ph : Fin 64) (g : Fin 16) (f : FpoutF)
  /-- STAIRWELL_FRAME (R240): At each two-tread stairwell frame, scheduled lines take places before unscheduled ones. -/
  | stairwellFrame
  /-- STAIRWELL_LINE_ARRIVAL (R243): A receiver checks the CRC-32 of a stairwell line and requests a resend on error. -/
  | stairwellLineArrival (k : Nat) (crcOk : Bool)
  /-- STORE_SCRUB_READ (R265): A hall reads one store line of each gallery every scrub interval, correcting or poisoning it. -/
  | storeScrubRead (ph : Fin 64) (ups : List Upset)
  /-- CORRECTED_ERROR_STORM (R487): A gallery whose corrected errors exceed the storm limit in one window becomes suspect. -/
  | correctedErrorStorm (ph : Fin 64) (g : Fin 16)
  /-- TOKEN_DELIVERY (R108): A token reaches all 64 stair controllers and is held in their token queues. -/
  | tokenDelivery (k : Nat)
  /-- HEAD_FETCH (R103): A stair controller fetches flight heads of launch candidates through unreserved slots. -/
  | headFetch (ph : Fin 64)
  /-- HEAD_FETCH_COMPLETE (R115): A flight head becomes present in the galleries of its share. -/
  | headFetchComplete (ph : Fin 64) (h : Fin 4)
  /-- LANDING_REPORT (R63): At report tread D the part judges its readiness for the landing. -/
  | landingReport (slice : BitVec 8)
  /-- IDLE_LANDING_START (R426): An idle landing starts at E of the previous landing plus the slice's idle gap. -/
  | idleLandingStart (slice : BitVec 8)
  /-- PART_READY (R118): A held part becomes ready, recomputes its launch set and sends a hold report. -/
  | partReady (slice : BitVec 8)
  /-- HOLD_REPORT_RECEIPT (R71): The master collects hold reports and, holding all, sends the release with hold length H. -/
  | holdReportReceipt (slice : BitVec 8) (r : HoldReport)
  /-- RELEASE_RECEIPT (R72): A part receiving the release adds H to its tread offset and leaves the landing. -/
  | releaseReceipt (slice : BitVec 8) (r : Release)
  /-- HOLD_TIMEOUT (R75): A part waiting 16,777,216 treads in a hold without release writes a hold-timeout fault. -/
  | holdTimeout (slice : BitVec 8)
  /-- LANDING_END (R64): At E the agents restart with lag 0 and the stair controllers launch the launch set. -/
  | landingEnd (slice : BitVec 8)
  /-- COMMIT_REPORT_RECEIPT (R492): The master collects every commit report and decides commit, abort and save. -/
  | commitReportReceipt (slice : BitVec 8) (r : CommitReport)
  /-- COMMIT_OUTCOME_RECEIPT (R490): A member applies the commit outcome before leaving the landing. -/
  | commitOutcomeReceipt (slice : BitVec 8) (o : CommitOutcome)
  /-- COMMIT_OUTCOME_TIMEOUT (R490): A part waiting 16,777,216 treads for an outcome acts as a hold timeout. -/
  | commitOutcomeTimeout (slice : BitVec 8)
  /-- TEST_WALK_COMPLETE (R495): A test walk ends and classifies the error as transient or lasting. -/
  | testWalkComplete (ph : Fin 64) (g : Fin 16) (w : WalkResult)
  /-- GALLERY_SCRUB_COMPLETE (R499): A gallery's scrub after a passed walk ends and the part stamps it with the state epoch. -/
  | galleryScrubComplete (ph : Fin 64) (g : Fin 16)
  /-- REJOIN_ADMISSION (R499): A rejoining unit is admitted, or refused on a stale stamp, at a landing whose rejoin item fits. -/
  | rejoinAdmission (slice : BitVec 8) (u : RejoinUnit)
  /-- IDLE_REJOIN_TICK (R499): While no slice is admitted each multiple of 16,384 in TREAD counts as a landing for rejoins. -/
  | idleRejoinTick
  /-- GALLERY_FENCE (R497): At the first landing after a failed walk the part fences the gallery and withdraws its hall. -/
  | galleryFence (ph : Fin 64) (g : Fin 16)
  /-- STEP_ABORTED_NOTICE (R498): After every walk has ended the steward writes the step-aborted notice. -/
  | stepAbortedNotice (slice : BitVec 8)
  /-- LATE_NOTICE_WRITE (R458): A notice that found no free entry is written once an entry becomes free. -/
  | lateNoticeWrite (q : Fin 16)
  /-- MEMORY_FRAME (R256): In each 16-tread memory frame a controller serves its reserved entries and free pseudo-channels. -/
  | memoryFrame (stack : Fin 14) (ups : List Upset)
  /-- SLOT_SEGMENT_ARRIVAL (R254): A fetched slot-table segment becomes present in the controller. -/
  | slotSegmentArrival (stack : Fin 14) (flight : BitVec 12)
  /-- PATROL_SCRUB_READ (R268): A controller reads one line per pseudo-channel every scrub interval in unreserved frames. -/
  | patrolScrubRead (stack : Fin 14) (ups : List Upset)
  /-- REFRESH_DEBT_TICK (R262): Every pseudo-channel's refresh debt rises by 1 at each TREAD multiple of TI. -/
  | refreshDebtTick (stack : Fin 14)
  /-- URGENT_REFRESH (R264): A pseudo-channel whose debt reaches 32 receives 8 refresh units at once. -/
  | urgentRefresh (stack : Fin 14) (pc : Fin 64)
  /-- STACK_TEMPERATURE_READ (R260): A controller reads its stack temperature every 16,384 treads and changes band. -/
  | stackTemperatureRead (stack : Fin 14) (temp : Nat)
  /-- SELF_REFRESH_ENTRY (R259): The steward places a stack with no running or candidate flight into self-refresh. -/
  | selfRefreshEntry (stack : Fin 14)
  /-- SELF_REFRESH_EXIT (R259): The steward takes a stack out of self-refresh before a flight using it launches. -/
  | selfRefreshExit (stack : Fin 14)
  /-- SEND (R342): A timetable entry transmits the parcel in bay A on the context's link. -/
  | send (p : Fin 30) (n : Fin 64)
  /-- MCAST (R346): A timetable entry transmits the parcel of bay A on every link of its mask. -/
  | mcast (p : Fin 30) (n : Fin 64)
  /-- RECV (R344): A timetable entry opens a bay to receive an expected parcel. -/
  | recv (p : Fin 30) (n : Fin 64)
  /-- REDUCE (R348): A timetable entry expects a parcel in bay A and combines it into bay B. -/
  | reduce (p : Fin 30) (n : Fin 64)
  /-- REDUCE_COMBINE (R348): The reduction unit combines an arrived line of bay A into bay B in list order. -/
  | reduceCombine (a : Fin 5) (k : Nat)
  /-- COPY (R347): A timetable entry copies bay lines to a bay of another arcade through a relay die. -/
  | copy (p : Fin 30) (n : Fin 64)
  /-- FREE (R337): A timetable entry frees bay A and returns its credit. -/
  | free (p : Fin 30) (n : Fin 64)
  /-- TSEND (R356): A timetable entry sends outbox token records as a class C parcel. -/
  | tsend (p : Fin 30) (n : Fin 64)
  /-- CONT (R334): A timetable entry fetches the next timetable segment. -/
  | cont (p : Fin 30) (n : Fin 64)
  /-- TIMETABLE_SEGMENT_ARRIVAL (R334): A fetched timetable segment becomes present in its stream buffer. -/
  | timetableSegmentArrival (p : Fin 30) (n : Fin 64) (flight : BitVec 12)
  /-- MISSING_PARCEL (R363): A RECV or REDUCE reaching its missing-parcel tread makes bay A a poisoned placeholder. -/
  | missingParcel (p : Fin 30) (n : Fin 64)
  /-- TOKEN_RECORD_DELIVERY (R357): A complete token-record parcel delivers each record to the stair controllers and frees its bay. -/
  | tokenRecordDelivery (p : Fin 30) (bay : Fin 128)
  /-- CONTROL_PARCEL_RELAY (R358): An arcade relays a class C control parcel along the slice tree within 64 treads. -/
  | controlParcelRelay (k : Nat)
  /-- EPOCH_PARCEL_RECEIPT (R615): A part applies, keeps or drops an epoch parcel and sets its tread epoch under R318. -/
  | epochParcelReceipt (p : Fin 30) (h : Fin 2) (slice : BitVec 8) (chip : BitVec 16) (epoch : Word64) (sent : Word64)
  /-- SHARE_ANNOUNCEMENT_RECEIPT (R353): An end sets its credit counts for a slice from the far end's share announcement. -/
  | shareAnnouncementReceipt (p : Fin 30) (h : Fin 2) (slice : BitVec 8) (sBays : BitVec 8) (cBays : BitVec 8)
  /-- STORAGE_WRITE (R361): The storage engine writes arriving class D data and answers with a write acknowledgement. -/
  | storageWrite (p : Fin 30) (chip : BitVec 16) (d : StorageParcel)
  /-- STORAGE_READ_REQUEST (R361): The storage engine reads requested data and answers with a read response. -/
  | storageReadRequest (p : Fin 30) (chip : BitVec 16) (d : StorageParcel) (ups : List Upset)
  /-- STORAGE_READ_RESPONSE (R361): A class D read response is written into part memory. -/
  | storageReadResponse (p : Fin 30) (chip : BitVec 16) (d : StorageParcel)
  /-- STORAGE_WRITE_ACKNOWLEDGEMENT (R361): A class D write acknowledgement arrives for a storage write. -/
  | storageWriteAcknowledgement (p : Fin 30) (chip : BitVec 16) (d : StorageParcel)
  /-- FRAME_SLOT (R340): The transmitter fills each frame slot by replay, owned context, control, D, M or idle precedence. -/
  | frameSlot (p : Fin 30) (h : Fin 2)
  /-- FRAME_RECEIPT (R375): The receiver decodes and verifies a frame and takes its ack, side item and parcel data. -/
  | frameReceipt (p : Fin 30) (h : Fin 2) (w : Codeword)
  /-- TIME_MARK_SEND (R383): Each end sends a time mark at least every 512 treads. -/
  | timeMarkSend (p : Fin 30) (h : Fin 2)
  /-- RETRY_TIME_EXPIRY (R393): A transmitter whose oldest frame waited the retry time re-sends or replays. -/
  | retryTimeExpiry (p : Fin 30) (h : Fin 2)
  /-- REQUEST_REPEAT (R394): A receiver whose request went unanswered for the retry time queues it again. -/
  | requestRepeat (p : Fin 30) (h : Fin 2)
  /-- LANE_DEGRADED (R395): A lane exceeding its corrected-symbol threshold becomes degraded and a spare request is sent. -/
  | laneDegraded (p : Fin 30) (lane : Fin 9)
  /-- SPARE_REQUEST (R396): A transmitter receiving a spare request mirrors the lane on the spare and sends a mirror notice. -/
  | spareRequest (p : Fin 30) (lane : Fin 9)
  /-- MIRROR_NOTICE (R396): A receiver receiving a mirror notice takes the lane from the spare and sends a switch notice. -/
  | mirrorNotice (p : Fin 30) (lane : Fin 9) (slot : Nat)
  /-- SWITCH_NOTICE (R396): A transmitter receiving a switch notice stops driving the replaced lane. -/
  | switchNotice (p : Fin 30) (lane : Fin 9)
  /-- SPARE_SUBSTITUTION_TIMEOUT (R396): A substitution not complete within 65,536 treads is abandoned. -/
  | spareSubstitutionTimeout (p : Fin 30)
  /-- LANE_LOSS_OF_LOCK (R398): A lane losing lock fails and its end starts a fast retrain. -/
  | laneLossOfLock (p : Fin 30) (lane : Fin 9)
  /-- UNCORRECTABLE_FRAME_BURST (R395): Four uncorrectable frames within 16 slots fail the indicated lane or start a retrain. -/
  | uncorrectableFrameBurst (p : Fin 30) (h : Fin 2) (lane : Option (Fin 9))
  /-- RETRAIN_ORDERED_SETS (R398): An end receiving retrain ordered sets stops sending frames and joins the retrain. -/
  | retrainOrderedSets (p : Fin 30) (h : Fin 2)
  /-- TRAINING_COMPLETE (R400): The training leader chooses the lane map and width and names a resume TREAD. -/
  | trainingComplete (p : Fin 30) (h : Fin 2) (r : TrainReport)
  /-- LINK_RESUME (R401): At the resume TREAD both ends resume, replaying or restarting their sessions. -/
  | linkResume (p : Fin 30) (h : Fin 2) (farN : BitVec 12)
  /-- FAST_RETRAIN_TIMEOUT (R402): A fast retrain not complete within 65,536 treads becomes a full training. -/
  | fastRetrainTimeout (p : Fin 30) (h : Fin 2)
  /-- LOSS_OF_SIGNAL (R402): Loss of signal on every lane of a direction starts a full training. -/
  | lossOfSignal (p : Fin 30) (h : Fin 2)
  /-- LINK_RETRAIN_WRITE (R408): A write of 1 to ARC_LINK_CFG.retrain starts a fast retrain. -/
  | linkRetrainWrite (p : Fin 30) (h : Fin 2) (value : Word)
  /-- BEACON_SEND (R303): A trained port sends a discovery beacon first and then every beacon interval. -/
  | beaconSend (p : Fin 30) (h : Fin 2)
  /-- BEACON_RECEIPT (R305): A received beacon is judged compatible or incompatible and updates the neighbour table. -/
  | beaconReceipt (p : Fin 30) (h : Fin 2) (b : Beacon)
  /-- BEACON_LOST (R308): An entry with no beacon for four intervals returns to state 2 with a fault record. -/
  | beaconLost (p : Fin 30) (h : Fin 2)
  /-- FOYER_POLL (R446): Every poll interval the foyer reads the doorbell block and new descriptors. -/
  | foyerPoll (words : List Word64)
  /-- NOP (R451): A NOP descriptor completes at once. -/
  | nop (hdr : DescHdr)
  /-- DMA_IN (R470): Move bytes from host memory into HBM or gallery store. -/
  | dmaIn (hdr : DescHdr) (d : DmaDesc) (data : List Byte)
  /-- DMA_OUT (R470): Move bytes from HBM or gallery store to host memory. -/
  | dmaOut (hdr : DescHdr) (d : DmaDesc) (ups : List Upset)
  /-- STOR_RD (R479): Read data from a storage gateway into part memory through class D parcels. -/
  | storRd (hdr : DescHdr) (d : DmaDesc)
  /-- STOR_WR (R479): Write data from part memory to a storage gateway through class D parcels. -/
  | storWr (hdr : DescHdr) (d : DmaDesc) (ups : List Upset)
  /-- DMA_GATE_OPEN (R475): A gated DMA starts, or aborts under commit-only, once its gate landing has ended. -/
  | dmaGateOpen (c : Fin 16)
  /-- DMA_READ_FAILURE (R472): A failed host read is retried, and after the last retry the channel halts. -/
  | dmaReadFailure (c : Fin 16) (addr : Word64)
  /-- DMA_TRANSFER_COMPLETE (R454): A finished transfer raises its token and writes its completion entry. -/
  | dmaTransferComplete (c : Fin 16)
  /-- BOOK (R460): Make every flight of a flight book resident, or refuse the whole book. -/
  | book (hdr : DescHdr) (slice : BitVec 8) (start : Word) (es : List BookEntry)
  /-- TOKEN_DESCRIPTOR (R464): Deliver one dependence token from the host for a flight and ordinal. -/
  | tokenDescriptor (hdr : DescHdr) (flight : BitVec 16) (ord : Word)
  /-- EVICT (R465): Request removal of a resident flight at an ordinal or at once. -/
  | evict (hdr : DescHdr) (flight : BitVec 16) (slice : BitVec 8) (ord : Word)
  /-- FLIGHT_EVICTION (R465): At D of the named ordinal the flight is removed with its count and tokens, or refused busy. -/
  | flightEviction (slice : BitVec 8) (flight : BitVec 12)
  /-- ADMIT (R316): Check a slice admission record; the master then sets its epoch and sends epoch parcels. -/
  | admitDesc (hdr : DescHdr) (len : Word) (r : AdmitRec)
  /-- RETIRE (R319): Retire a slice with no resident flight, freeing its contexts. -/
  | retire (hdr : DescHdr) (slice : BitVec 8)
  /-- REG_WRITE_DESCRIPTOR (R466): Request a set-up register write at an ordinal or at once. -/
  | regWriteDescriptor (hdr : DescHdr) (off : Word) (value : Word) (ord : Word) (slice : BitVec 8)
  /-- REG_WRITE_AT_ORDINAL (R466): At D of the named ordinal the requested register write is made or refused. -/
  | regWriteAtOrdinal (slice : BitVec 8)
  /-- CH_RESUME (R473): Resume a halted DMA channel with the descriptor after the failed one. -/
  | chResume (hdr : DescHdr) (chan : BitVec 8)
  /-- CHANNEL_HALT_WRITE (R473): A write of 1 to DMA_CH_STAT.halt resumes a halted channel. -/
  | channelHaltWrite (c : Fin 16) (value : Word)
  /-- QUEUE_ENABLE_WRITE (R448): A write of FOY_Q_CFG.en starts a queue with zero indices or stops it from reading descriptors. -/
  | queueEnableWrite (q : Fin 16) (value : Word)
  /-- QUEUE_IDLE (R448): A disabled queue's read descriptors complete and it sets idle. -/
  | queueIdle (q : Fin 16)
  /-- HOST_LINK_RESET (R441): FLR, host-link reset or link loss stops polling and resets the foyer and DMA registers. -/
  | hostLinkReset (why : HostReset)
  /-- TENANT_TELEMETRY_WRITE (R557): The foyer writes a tenant telemetry record every 10^9 TB3 counts. -/
  | tenantTelemetryWrite (q : Fin 16)
  /-- SAVE (R501): FLT_SAVE_CTL op save requests a save of the slice at a quiesce landing. -/
  | save (slice : BitVec 8)
  /-- RESUME (R504): FLT_SAVE_CTL op resume releases a saved slice in place. -/
  | resume (slice : BitVec 8)
  /-- RESTORE (R505): FLT_SAVE_CTL op restore loads a saved slice state and holds it at its landing. -/
  | restore (slice : BitVec 8)
  /-- WATCHDOG_EXPIRY (R554): A steward core watchdog expiry restarts all four steward cores. -/
  | watchdogExpiry (core : Fin 4)
  /-- PACE_LOOP_SAMPLE (R518): Every 64 treads the regulator controller adjusts vcode from the baluster monitors. -/
  | paceLoopSample (ph : Fin 64) (counts : List Nat)
  /-- PACE_SHORTFALL (R521): A hall below target for 256 samples at vcode 160 has a pace shortfall. -/
  | paceShortfall (ph : Fin 64)
  /-- REGULATOR_FAILURE (R500): A failed hall regulator withdraws the hall at once and poisons its crossings. -/
  | regulatorFailure (ph : Fin 64) (why : RegFailure) (mv : BitVec 16)
  /-- POWER_WINDOW (R524): The power manager estimates the energy of each 200-tread window for the limiter. -/
  | powerWindow
  /-- THERMAL_SENSOR_READ (R528): The power manager reads every hall, arcade and atrium sensor every 1,600 treads. -/
  | thermalSensorRead (t : Temps)
  /-- SUPPLY_THRESHOLD_CROSSING (R510): A supply held beyond a detection threshold for 1 µs changes range. -/
  | supplyThresholdCrossing (sup : Supply) (mv : Nat)
  /-- MAIN_ON (R512): Every main rail is in regulation and every stack has trained. -/
  | mainOn
  /-- PWR_CTL_MAIN_WRITE (R514): A write of PWR_CTL.main raises main power or makes a main-power stop. -/
  | pwrCtlMainWrite (value : Word)
  /-- WAKE_REQUEST (R522): A write to PWR_WAKE requests a hall wake or cancels a pending sleep. -/
  | wakeRequest (hi : Bool) (value : Word)
  /-- SLEEP_REQUEST (R522): A write to PWR_SLEEP requests a hall sleep or cancels a wake not begun. -/
  | sleepRequest (hi : Bool) (value : Word)
  /-- WAKE_GROUP_START (R523): The power manager wakes up to 4 pending halls at least 4,000 treads after the previous group. -/
  | wakeGroupStart
  /-- HALL_SCRUB_COMPLETE (R266): A waking hall finishes writing every store line and becomes idle at the next landing. -/
  | hallScrubComplete (ph : Fin 64)
  /-- REFERENCE_LOST (R532): The atrium declares the rack reference lost and the counter freewheels. -/
  | referenceLost
  /-- REFERENCE_TAKEN_BACK (R534): A reference present and in tolerance for 1 ms is taken back without tread skips. -/
  | referenceTakenBack
  /-- BOOT_REFERENCE_TIMEOUT (R535): With no reference after 100 ms at boot, TREAD starts on the atrium oscillator. -/
  | bootReferenceTimeout
  /-- COUNTER_SNAPSHOT_PUBLISH (R536): Counter and status snapshots are published to the register side every 64 treads. -/
  | counterSnapshotPublish
  /-- BOOT (R546): On standby rise or RST_N release the part boots through ROM, firmware, reference, main power and ports. -/
  | boot (b : BootFind)
  /-- RST_N_ASSERT (R610): RST_N driven low holds the part in part reset. -/
  | rstNAssert
  /-- COMPUTE_RESET (R269): A compute reset resets the compute dies, keeping HBM, poison lists, selectors and arcades. -/
  | computeReset
  /-- GET_ID (R565): SMBus command returning identity, grade, stepping and firmware version. -/
  | getId
  /-- GET_STATUS (R565): SMBus command returning power, health, alert and security status. -/
  | getStatus
  /-- REG_READ (R570): SMBus command reading a set-up register. -/
  | regRead (off : Word)
  /-- SMBUS_REG_WRITE (R570): SMBus command writing a set-up register under its own rules. -/
  | smbusRegWrite (off : Word) (value : Word)
  /-- FAULT_READ (R565): SMBus command returning a fault record by sequence number. -/
  | faultRead (seq : Word)
  /-- RESET (R565): SMBus command requesting a compute reset or a part reset. -/
  | reset (kind : Byte)
  /-- MAIN (R565): SMBus command acting as a write of PWR_CTL.main. -/
  | main (value : Byte)
  /-- ATTEST (R550): SMBus command making a signed attestation report over a nonce. -/
  | attest (nonce : BitVec 256)
  /-- ATTEST_READ (R565): SMBus command returning bytes of the attestation report. -/
  | attestRead (off : BitVec 16)
  /-- FW_WRITE (R565): SMBus command writing bytes to a firmware slot or the installation section. -/
  | fwWrite (target : Byte) (off : Word) (bytes : List Byte)
  /-- FW_ACTIVATE (R548): SMBus command verifying a slot, making it active and raising the floor. -/
  | fwActivate (slot : Byte) (valid : Bool) (version : Word)
  /-- CLEAR_ALERT (R565): SMBus command clearing ATR_ALERT bits by mask. -/
  | clearAlert (mask : Byte)
  /-- FW_DOWNGRADE (R552): Presence command making an older valid image active and lowering the floor. -/
  | fwDowngrade (slot : Byte) (valid : Bool) (version : Word)
  /-- IDENTITY_RESET (R552): Presence command rebuilding the identity and sealed record, then a part reset. -/
  | identityReset
  /-- DEBUG_UNLOCK (R552): Presence command enabling vendor JTAG with a signed single-use token. -/
  | debugUnlock (signed : Bool) (digestOk : Bool) (counter : Word64)
  /-- UNFENCE (R552): Presence command clearing a gallery's fence record so that it rejoins. -/
  | unfence (gi : BitVec 16)
  /-- PRESENCE_STATUS (R565): SMBus command returning the pending presence command and seconds left. -/
  | presenceStatus
  /-- RESULT (R565): SMBus Block Read returning the status and data of the last command. -/
  | result
  /-- PRESENCE_SHOWN (R551): PRESENT_N asserted for 100 samples after acceptance carries out the pending presence command. -/
  | presenceShown
  /-- PRESENCE_TIMEOUT (R552): A presence command without presence for 60 s ends with presence timeout. -/
  | presenceTimeout
  /-- SEAL_BREAK (R553): An open seal loop latches the break, writes a record and a notice. -/
  | sealBreak
  /-- EXTEST (R567): JTAG instruction driving the scanned pins in standby. -/
  | extest (pins : Word)
  /-- IDCODE (R567): JTAG instruction returning the identification code. -/
  | idcode
  /-- SAMPLE_PRELOAD (R567): JTAG instruction sampling or preloading the boundary scan. -/
  | samplePreload (pins : Word)
  /-- SMD_STATUS (R567): JTAG instruction returning SEC_STAT. -/
  | smdStatus
  /-- VENDOR_DEBUG (R567): JTAG vendor debug instructions, acting only after DEBUG_UNLOCK. -/
  | vendorDebug (code : Byte)
  /-- BYPASS (R567): JTAG bypass instruction, also taken by every unlisted code. -/
  | bypass (code : Byte)
  /-- TIM_TB_RATE_WRITE (R559): A rate write rebases TB1 or TB2 and sets its new rate without a step. -/
  | timTbRateWrite (b : Fin 2) (value : Word)
  /-- TIM_TB_STEP_WRITE (R559): A write of TIM_TB_STEP_HI adds the signed step to the time base. -/
  | timTbStepWrite (b : Fin 2) (value : Word)
  /-- TIM_SNAP_TAKE (R560): A write of take captures TB0 to TB3 at one instant and increments seq. -/
  | timSnapTake (value : Word)
  /-- TPULSE (R562): TPULSEn asserts when its base reaches the pulse time and schedules the next. -/
  | tpulse (n : Fin 4)
  /-- HAL_VMAP_WRITE (R129): A write of HAL_VMAP maps a hall into a grid, refused unless the hall is idle, asleep or withdrawn. -/
  | halVmapWrite (ph : Fin 64) (value : Word)
  /-- HAL_MODE_WRITE (R179): A write of HAL_MODE sets forerunner accumulation, refused unless the hall is idle, asleep or withdrawn. -/
  | halModeWrite (ph : Fin 64) (value : Word)
  /-- HAL_PACE_WRITE (R417): A write of HAL_PACE.as_a0 selects A0 latencies under its conditions. -/
  | halPaceWrite (ph : Fin 64) (value : Word)
  /-- MEM_CREG_WRITE (R278): A write of MEM_CREG_BASE or MEM_CREG_LEN defines a commit region under its conditions. -/
  | memCregWrite (stack : Fin 14) (k : Fin 8) (isLen : Bool) (value : Word)
  /-- ARC_GLOBAL_WRITE (R284): A write changing linkmap or mesh2d takes every port down and retrains it. -/
  | arcGlobalWrite (value : Word)
  /-- ARC_PORT_CTL_WRITE (R321): A write of ARC_PORT_CTL holds a port down or changes spare use when no slice uses it. -/
  | arcPortCtlWrite (p : Fin 30) (value : Word)
  /-- ARC_CTX_WRITE (R367): A write of ARC_CTX_A or B enables a context and sends its share announcement. -/
  | arcCtxWrite (p : Fin 30) (n : Fin 64) (isB : Bool) (value : Word)
  /-- TIM_IDLE_WRITE (R427): A write of TIM_IDLE_GAP or TIM_IDLE_W sets idle landing shape under its conditions. -/
  | timIdleWrite (slice : BitVec 8) (isW : Bool) (value : Word)
  /-- SET_UP_REGISTER_WRITE (R584): A write to any other set-up register takes effect or is refused with cause 0x0117 under Table 15.10. -/
  | setUpRegisterWrite (off : Word) (value : Word)
  /-- FIXED_RATIO_STAGE_FAULT (R513): The module's fixed-ratio stage reports a fault, and the power manager makes a main-power stop with cause 0x5 recorded in PWR_EVT. -/
  | fixedRatioStageFault
  /-- STEWARD_MEMORY_UNCORRECTABLE (R554): An uncorrectable error in steward memory restarts all four steward cores, with ATR_WDOG.last set to memory error and the effects of R555. -/
  | stewardMemoryUncorrectable
  /-- RESET_RESULT_TIMEOUT (R565): When 10 ms pass after an SMBus RESET command without its result being read, the part makes the requested compute reset or part reset. -/
  | resetResultTimeout
  deriving DecidableEq, Repr

end Sys2Proof
end

