-- ==== Sys2Proof/Config.lean ====
section
/-! DEFINITION. The free values of the model: constants without a body, standing for values that the spec leaves
open. Nothing can be proved of a value of theirs.
-/
namespace Sys2Proof

/-- The byte that undefined memory holds: `tag` names the event that left it undefined, `addr` its address (02 R82,
06 R273, 11 R441, 12 R497). Log 11 (DESIGN CHOICE). -/
opaque Config.freeByte : Nat → Nat → Byte

/-- Byte `i` of the signature that the identity key of a salt makes over a report (14 R550): the keys are not in the spec. -/
opaque Config.signature : Nat → List Byte → Nat → Byte

/-- Byte `i` of the SHAKE256 digests and of the identity public key that a report carries (14 Table 14.6): 0 the factory section,
1 the installation section, 2 the running image, 3 the identity key; the second argument names what was read or the salt. -/
opaque Config.digest : Nat → Nat → Nat → Byte

/-- Smidor's JEDEC manufacturer code (14 Table 14.12). -/
opaque Config.jedec : BitVec 11

/-- The release reach of a slice (02 R71): the loader's largest flood span from the master. The spec names no register
that gives it to the part. Log 81 (DESIGN CHOICE). -/
opaque Config.releaseReach : Nat → Nat

/-- The bytes that a transfer had moved when a compute reset cancelled it (11 Table 11.8): `n` counts free values. -/
opaque Config.movedBytes : Nat → Word64

/-- FOY_LINK_STAT as the host link trains (11 Table 11.17): rate, width and flit mode come from the host. -/
opaque Config.hostLink : BitVec 7

/-- The byte offset, within a share section, of bundle `b` of the stream of gallery `g`: the spec gives the section no byte
layout (10 R418, R435). -/
opaque Config.shareOffset : Nat → Nat → Nat

/-- The byte offset, within a commit region list, of the stack of its region `i`: the spec gives the section no byte layout (10 R418,
R435). -/
opaque Config.cregOffset : Nat → Nat

/-- What the part measures and no command brings (13 Table 13.8): `what` is 0 input voltage, 1 input current, 2 input power,
3 oscillator offset, 4 the output voltage of a hall at a pace shortfall, 5 the TB3 of the last watchdog service at a memory error,
6 the levels that a boundary scan captures, 64 + pH the output current of a hall; `n` counts the
readings. -/
opaque Config.measured : Nat → Nat → Nat

/-- What an installation section that SMBus has written holds (14 Table 14.10): the section's byte layout is not in the spec.
The argument lists the bytes written by flash offset. -/
opaque Config.installOf : List (Nat × Byte) → Inst

/-- Which of several outcomes that apply at once the part names, where the spec gives no order among them. The argument is what the
choice may depend on. -/
opaque Config.choice : List Nat → Nat

/-- What X[xa] holds after an LDX that loads it with the first argument and advances it to the second (05 R200, R214): the spec
does not say. -/
opaque Config.ldxBoth : Word64 → Word64 → Word64

end Sys2Proof
end

