-- ==== Sys2Proof/Machine/Float.lean ====
section
/-! DEFINITION. Number formats, exact values and rounding (04_number_formats_and_arithmetic.md R132 to R151). -/
namespace Sys2Proof.Machine

/-- The element formats of 04 Table 04.4. See 04 R133. -/
inductive Fmt where
  | fp32 | bf16 | fp16 | e4m3 | e5m2 | e3m2 | e2m3 | e2m1 | int8 | int4 | int32
  deriving DecidableEq, Repr

/-- The format a code names; the codes 0xB to 0xF are reserved (R136). -/
def Fmt.ofCode (c : BitVec 4) : Option Fmt :=
  match c.toNat with
  | 0 => some .fp32 | 1 => some .bf16 | 2 => some .fp16 | 3 => some .e4m3 | 4 => some .e5m2
  | 5 => some .e3m2 | 6 => some .e2m3 | 7 => some .e2m1 | 8 => some .int8 | 9 => some .int4
  | 10 => some .int32 | _ => none

/-- Element width in bits (Table 04.4). -/
def Fmt.width : Fmt → Nat
  | .fp32 | .int32 => 32 | .bf16 | .fp16 => 16 | .e4m3 | .e5m2 | .int8 => 8
  | .e3m2 | .e2m3 => 6 | .e2m1 | .int4 => 4

/-- Whether the format may be a matrix operand (Table 04.4). -/
def Fmt.matrix : Fmt → Bool
  | .fp32 | .int32 => false
  | _ => true

/-- Whether the format is an integer format (R134). -/
def Fmt.isInt : Fmt → Bool
  | .int8 | .int4 | .int32 => true
  | _ => false

/-- Fraction bits (Table 04.1); 0 for the integer formats. -/
def Fmt.frac : Fmt → Nat
  | .fp32 => 23 | .bf16 => 7 | .fp16 => 10 | .e4m3 => 3 | .e5m2 => 2 | .e3m2 => 2 | .e2m3 => 3
  | .e2m1 => 1 | .int8 | .int4 | .int32 => 0

/-- Exponent bias (Table 04.1). -/
def Fmt.bias : Fmt → Nat
  | .fp32 | .bf16 => 127 | .fp16 | .e5m2 => 15 | .e4m3 => 7 | .e3m2 => 3 | .e2m3 => 1 | .e2m1 => 1
  | .int8 | .int4 | .int32 => 0

/-- Whether the format has infinities (Table 04.1). -/
def Fmt.hasInf : Fmt → Bool
  | .fp32 | .bf16 | .fp16 | .e5m2 => true
  | _ => false

/-- The encoding of the largest finite magnitude (Table 04.1). -/
def Fmt.maxMag : Fmt → Nat
  | .fp32 => 0x7F7FFFFF | .bf16 => 0x7F7F | .fp16 => 0x7BFF | .e4m3 => 0x7E | .e5m2 => 0x7B
  | .e3m2 => 0x1F | .e2m3 => 0x1F | .e2m1 => 0x7 | .int8 => 0x7F | .int4 => 0x7 | .int32 => 0x7FFFFFFF

/-- The canonical NaN (Table 04.3); a format without NaN has none, and a NaN becomes +0 there (Table 04.8). -/
def Fmt.canonNaN : Fmt → Nat
  | .fp32 => 0x7FC00000 | .bf16 => 0x7FC0 | .fp16 => 0x7E00 | .e5m2 => 0x7E | .e4m3 => 0x7F | _ => 0

/-- The encoding of +infinity, where there is one. -/
def Fmt.infMag (f : Fmt) : Nat := f.maxMag + 1

/-- An exact value: NaN (signalling or not), infinity, or (−1)^neg × m × 2^e. -/
inductive FVal where
  | nan (sig : Bool)
  | inf (neg : Bool)
  | fin (neg : Bool) (m : Nat) (e : Int)
  deriving DecidableEq, Repr

/-- The integer `z` as an exact value. -/
def FVal.ofInt (z : Int) : FVal := .fin (decide (z < 0)) z.natAbs 0

/-- The value of an element (R132 to R134). A NaN is signalling where its top fraction bit is 0 (E5M2's 0x7D is,
E4M3's NaN is not): the spec names no signalling codes for BF16, E5M2 and E4M3. Log 104 (DESIGN CHOICE). -/
def Fmt.value (f : Fmt) (bits : Nat) : FVal :=
  let w := f.width
  let x := bits % 2 ^ w
  if f.isInt then
    if x < 2 ^ (w - 1) then .fin false x 0 else .fin true (2 ^ w - x) 0
  else
    let neg := decide (2 ^ (w - 1) ≤ x)
    let mag := x % 2 ^ (w - 1)
    let ef := mag >>> f.frac
    let fr := mag % 2 ^ f.frac
    if f.hasInf && decide (mag = f.infMag) then .inf neg
    else if (f.hasInf || decide (f = .e4m3)) && decide (f.maxMag < mag) then .nan (decide (fr < 2 ^ (f.frac - 1)))
    else if ef = 0 then .fin neg fr (1 - (f.bias : Int) - f.frac)
    else .fin neg (2 ^ f.frac + fr) ((ef : Int) - f.bias - f.frac)

/-- The rounding modes of Table 04.6. -/
inductive Rnd where
  | rne | rtz | rdn | rup | rna | sr
  deriving DecidableEq, Repr

/-- The mode a code names; 0b110 and 0b111 are reserved. -/
def Rnd.ofCode (c : BitVec 3) : Option Rnd :=
  match c.toNat with
  | 0 => some .rne | 1 => some .rtz | 2 => some .rdn | 3 => some .rup | 4 => some .rna | 5 => some .sr | _ => none

/-! The flags of HAL_GAL_ARITH, by bit (Table 04.17). -/
def flInexact : BitVec 8 := 0x01
def flUnderflow : BitVec 8 := 0x02
def flOverflow : BitVec 8 := 0x04
def flDivzero : BitVec 8 := 0x08
def flInvalid : BitVec 8 := 0x10
def flSquash : BitVec 8 := 0x20
def flAccInexact : BitVec 8 := 0x40
def flAccRange : BitVec 8 := 0x80

/-- `fl` when `b`, no flag otherwise. -/
def flagIf (b : Bool) (fl : BitVec 8) : BitVec 8 := if b then fl else 0

/-- Whether a discarded part `rem` of a gap `2^sh` rounds away from zero (R142, R148). `odd` is the last kept bit
and `r` the counter generator's output, used by SR alone. -/
def roundsUp (md : Rnd) (r : BitVec 32) (neg odd : Bool) (rem sh : Nat) : Bool :=
  if rem = 0 then false
  else match md with
    | .rne => decide (2 ^ sh < 2 * rem) || (decide (2 * rem = 2 ^ sh) && odd)
    | .rna => decide (2 ^ sh ≤ 2 * rem)
    | .rtz => false
    | .rdn => neg
    | .rup => !neg
    | .sr => decide (r.toNat < rem * 2 ^ 32 / 2 ^ sh)

/-- `m × 2^e` as a multiple of `2^q`: the rounded integer and whether a nonzero part was discarded. -/
def roundAt (md : Rnd) (r : BitVec 32) (neg : Bool) (m : Nat) (e q : Int) : Nat × Bool :=
  if q ≤ e then (m * 2 ^ (e - q).toNat, false)
  else
    let sh := (q - e).toNat
    let n := m / 2 ^ sh
    let rem := m % 2 ^ sh
    (if roundsUp md r neg (decide (n % 2 = 1)) rem sh then n + 1 else n, decide (rem ≠ 0))

/-- The least exponent of a fraction unit of a floating-point format. -/
def Fmt.qmin (f : Fmt) : Int := 1 - (f.bias : Int) - f.frac

/-- Rounding in the format with its exponent unbounded above (R143): the magnitude code and whether it is inexact. -/
def Fmt.roundExt (f : Fmt) (md : Rnd) (r : BitVec 32) (neg : Bool) (m : Nat) (e : Int) : Nat × Bool :=
  if m = 0 then (0, false)
  else
    let q := max ((Nat.log2 m : Int) + e - f.frac) f.qmin
    let (n, inx) := roundAt md r neg m e q
    ((q - f.qmin).toNat * 2 ^ f.frac + n, inx)

/-- The magnitude an overflowed value takes, and whether it is a NaN made of it (R144). -/
def Fmt.overflowMag (f : Fmt) (md : Rnd) (sat neg : Bool) : Nat × Bool :=
  if sat || (!f.hasInf && !decide (f = .e4m3)) then (f.maxMag, false)
  else
    let toInf := match md with
      | .rne | .rna | .sr => true
      | .rtz => false
      | .rdn => neg
      | .rup => !neg
    if toInf then (if f.hasInf then (f.infMag, false) else (f.canonNaN, true)) else (f.maxMag, false)

/-- A magnitude code with its sign, as the encoding of the format. -/
def Fmt.pack (f : Fmt) (neg : Bool) (mag : Nat) : Nat := if neg then mag + 2 ^ (f.width - 1) else mag

/-- A finite value rounded once to a floating-point format, with its flags (R142 to R144, Table 04.17). -/
def Fmt.roundFloat (f : Fmt) (md : Rnd) (sat : Bool) (r : BitVec 32) (neg : Bool) (m : Nat) (e : Int) :
    Nat × BitVec 8 :=
  let (mag, inx) := f.roundExt md r neg m e
  if f.maxMag < mag then
    let (om, isNaN) := f.overflowMag md sat neg
    (if isNaN then om else f.pack neg om, flOverflow ||| flInexact ||| flagIf isNaN flInvalid)
  else
    (f.pack neg mag, flagIf inx flInexact ||| flagIf (inx && decide (mag < 2 ^ f.frac)) flUnderflow)

/-- The two's-complement encoding of `z` in `w` bits. -/
def encodeInt (w : Nat) (z : Int) : Nat := (z % (2 ^ w : Int)).toNat

/-- A finite value rounded to an integer format, saturated (R144, R151). -/
def Fmt.roundInt (f : Fmt) (md : Rnd) (r : BitVec 32) (neg : Bool) (m : Nat) (e : Int) : Nat × BitVec 8 :=
  let (n, inx) := roundAt md r neg m e 0
  let z : Int := if neg then -(n : Int) else n
  let hi : Int := 2 ^ (f.width - 1) - 1
  let lo : Int := -(2 ^ (f.width - 1))
  if hi < z then (encodeInt f.width hi, flOverflow ||| flInexact)
  else if z < lo then (encodeInt f.width lo, flOverflow ||| flInexact)
  else (encodeInt f.width z, flagIf inx flInexact)

/-- A conversion of an exact value to a format (R149 to R151, Table 04.8), with its flags. See 04 R150. -/
def Fmt.convert (f : Fmt) (md : Rnd) (sat : Bool) (r : BitVec 32) (v : FVal) : Nat × BitVec 8 :=
  match v with
  | .nan sig =>
      (f.canonNaN, flagIf sig flInvalid ||| flagIf (!f.hasInf && !decide (f = .e4m3)) flSquash)
  | .inf neg =>
      if f.hasInf then (f.pack neg f.infMag, 0)
      else if f.isInt then (encodeInt f.width (if neg then -(2 ^ (f.width - 1)) else 2 ^ (f.width - 1) - 1), flInvalid)
      else if f = .e4m3 && !sat then (f.canonNaN, flInvalid)
      else (f.pack neg f.maxMag, flInvalid)
  | .fin neg m e => if f.isInt then f.roundInt md r neg m e else f.roundFloat md sat r neg m e

/-- The exact product of two values; the second part says that it is 0 × infinity (R157). -/
def FVal.mul : FVal → FVal → FVal × Bool
  | .nan a, .nan b => (.nan (a || b), false)
  | .nan a, _ => (.nan a, false)
  | _, .nan b => (.nan b, false)
  | .inf a, .inf b => (.inf (a != b), false)
  | .inf a, .fin b m _ => if m = 0 then (.nan false, true) else (.inf (a != b), false)
  | .fin a m _, .inf b => if m = 0 then (.nan false, true) else (.inf (a != b), false)
  | .fin a m e, .fin b n f => (.fin (a != b) (m * n) (e + f), false)

/-- A finite value as an integer multiple of `2^q`, for `q` at most its exponent. -/
def scaledInt (neg : Bool) (m : Nat) (e q : Int) : Int :=
  let z : Int := (m * 2 ^ (e - q).toNat : Nat)
  if neg then -z else z

/-- The exact sum of two finite values; a zero sum is given the sign that IEEE 754-2019 gives in mode `md`. -/
def addFin (md : Rnd) (a : Bool) (m : Nat) (e : Int) (b : Bool) (n : Nat) (f : Int) : Bool × Nat × Int :=
  let q := min e f
  let z := scaledInt a m e q + scaledInt b n f q
  if z = 0 then (if m = 0 ∧ n = 0 ∧ a = b then a else decide (md = .rdn), 0, q)
  else (decide (z < 0), z.natAbs, q)

/-- Whether a value is a signalling NaN. -/
def FVal.isSig : FVal → Bool
  | .nan s => s
  | _ => false

/-- Whether a value is a NaN. -/
def FVal.isNaN : FVal → Bool
  | .nan _ => true
  | _ => false

/-- The sum of two exact values rounded once to `f` (R152): IEEE 754-2019 addition with canonical NaN. -/
def Fmt.addVals (f : Fmt) (md : Rnd) (sat : Bool) (x y : FVal) : Nat × BitVec 8 :=
  match x, y with
  | .nan a, v => (f.canonNaN, flagIf (a || v.isSig) flInvalid)
  | v, .nan b => (f.canonNaN, flagIf (b || v.isSig) flInvalid)
  | .inf a, .inf b => if a = b then (f.pack a f.infMag, 0) else (f.canonNaN, flInvalid)
  | .inf a, .fin _ _ _ => (f.pack a f.infMag, 0)
  | .fin _ _ _, .inf b => (f.pack b f.infMag, 0)
  | .fin a m e, .fin b n g =>
      let (s, k, q) := addFin md a m e b n g
      f.roundFloat md sat 0 s k q

/-- A value with its sign inverted. -/
def FVal.neg : FVal → FVal
  | .nan s => .nan s
  | .inf n => .inf (!n)
  | .fin n m e => .fin (!n) m e

/-! FP32 operations of the vector slots (R152, R153), each giving result bits and flags. -/

def fval32 (x : Word) : FVal := Fmt.fp32.value x.toNat

def fp32Add (md : Rnd) (sat : Bool) (x y : Word) : Word × BitVec 8 :=
  let (b, fl) := Fmt.fp32.addVals md sat (fval32 x) (fval32 y)
  (BitVec.ofNat 32 b, fl)

def fp32Sub (md : Rnd) (sat : Bool) (x y : Word) : Word × BitVec 8 :=
  let (b, fl) := Fmt.fp32.addVals md sat (fval32 x) (fval32 y).neg
  (BitVec.ofNat 32 b, fl)

def fp32Mul (md : Rnd) (sat : Bool) (x y : Word) : Word × BitVec 8 :=
  let (p, zi) := (fval32 x).mul (fval32 y)
  match p with
  | .nan s => (BitVec.ofNat 32 Fmt.fp32.canonNaN, flagIf (s || zi) flInvalid)
  | .inf n => (BitVec.ofNat 32 (Fmt.fp32.pack n Fmt.fp32.infMag), 0)
  | .fin n m e =>
      let (b, fl) := Fmt.fp32.roundFloat md sat 0 n m e
      (BitVec.ofNat 32 b, fl)

/-- x × y + z with one rounding. A product 0 × infinity with a quiet NaN addend sets no invalid flag: the NaN is then
not made from operands that were not NaN (Table 04.17). -/
def fp32Fma (md : Rnd) (sat : Bool) (x y z : Word) : Word × BitVec 8 :=
  let (p, zi) := (fval32 x).mul (fval32 y)
  let c := fval32 z
  if zi then (BitVec.ofNat 32 Fmt.fp32.canonNaN, flagIf (!c.isNaN || c.isSig) flInvalid)
  else
    let (b, fl) := Fmt.fp32.addVals md sat p c
    (BitVec.ofNat 32 b, fl)

/-- Order of two values that are not NaN: −1, 0 or 1; the zeros are equal. -/
def FVal.cmp : FVal → FVal → Int
  | .inf a, .inf b => if a = b then 0 else if a then -1 else 1
  | .inf a, _ => if a then -1 else 1
  | _, .inf b => if b then 1 else -1
  | .fin a m e, .fin b n f =>
      let q := min e f
      let d := scaledInt a m e q - scaledInt b n f q
      if d < 0 then -1 else if d = 0 then 0 else 1
  | _, _ => 0

/-- FMIN and FMAX: canonical NaN when either input is NaN; −0 orders below +0 (R153). -/
def fp32MinMax (isMax : Bool) (x y : Word) : Word × BitVec 8 :=
  let a := fval32 x
  let b := fval32 y
  if a.isNaN || b.isNaN then (BitVec.ofNat 32 Fmt.fp32.canonNaN, flagIf (a.isSig || b.isSig) flInvalid)
  else
    let c := a.cmp b
    let xLess := decide (c < 0) || (decide (c = 0) && x.msb)
    (if xLess = isMax then y else x, 0)

/-- The relations of the compares. -/
inductive FRel where
  | eq | lt | le
  deriving DecidableEq, Repr

/-- FCMPEQ is quiet; FCMPLT and FCMPLE signal on every NaN (R152). -/
def fp32Cmp (rel : FRel) (x y : Word) : Bool × BitVec 8 :=
  let a := fval32 x
  let b := fval32 y
  if a.isNaN || b.isNaN then
    (false, flagIf (decide (rel ≠ .eq) || a.isSig || b.isSig) flInvalid)
  else
    let c := a.cmp b
    (match rel with | .eq => decide (c = 0) | .lt => decide (c < 0) | .le => decide (c ≤ 0), 0)

end Sys2Proof.Machine
end

