-- ==== Sys2Proof/Machine/Map.lean ====
section
/-! DEFINITION. Sparse maps with natural-number keys, held in one canonical form: keys strictly rising and no
entry equal to the default. Memories, register files and the arrays of units are all kept this way.
-/
namespace Sys2Proof.Machine

/-- A sparse map: a list of keys and values. A key that is not listed holds the map's default. Log 10 (DESIGN CHOICE). -/
abbrev SMap (α : Type) := List (Nat × α)

/-- What key `k` holds; `d` is the value of an unlisted key. -/
def SMap.get {α : Type} (d : α) : SMap α → Nat → α
  | [], _ => d
  | (a, v) :: m, k => if a = k then v else SMap.get d m k

/-- The map without key `k`. -/
def SMap.erase {α : Type} : SMap α → Nat → SMap α
  | [], _ => []
  | (a, v) :: m, k => if a = k then SMap.erase m k else (a, v) :: SMap.erase m k

/-- The map with `(k, v)` put before the first greater key. -/
def SMap.place {α : Type} : SMap α → Nat → α → SMap α
  | [], k, v => [(k, v)]
  | (a, w) :: m, k, v => if k < a then (k, v) :: (a, w) :: m else (a, w) :: SMap.place m k v

/-- The map with key `k` holding `v`; writing the default removes the entry. -/
def SMap.set {α : Type} [DecidableEq α] (d : α) (m : SMap α) (k : Nat) (v : α) : SMap α :=
  if v = d then SMap.erase m k else SMap.place (SMap.erase m k) k v

/-- Keys strictly rising. -/
def SMap.rising {α : Type} : SMap α → Bool
  | [] => true
  | [_] => true
  | (a, _) :: (b, w) :: m => decide (a < b) && SMap.rising ((b, w) :: m)

/-- The canonical form: keys strictly rising, no entry equal to the default. -/
def SMap.wf {α : Type} [DecidableEq α] (d : α) (m : SMap α) : Bool :=
  SMap.rising m && m.all (fun e => !decide (e.2 = d))

/-- The keys a map lists. -/
def SMap.keys {α : Type} (m : SMap α) : List Nat := m.map (fun e => e.1)

/-- The map with `f` applied to the value of key `k`. -/
def SMap.upd {α : Type} [DecidableEq α] (d : α) (m : SMap α) (k : Nat) (f : α → α) : SMap α :=
  SMap.set d m k (f (SMap.get d m k))

end Sys2Proof.Machine
end

