-- ==== Sys2Proof/Machine/Units.lean ====
section
/-! DEFINITION. The units of the part as plain data: galleries, halls, memory controllers, ports, links, contexts,
bays, slices, resident flights, queues and channels. Field defaults are the reset values that the field maps of the
spec give; where the spec gives none the value is zero (log entry 3).
-/
namespace Sys2Proof.Machine

/-! ### Galleries (03, 04, 05) -/

/-- A V register: 64 lanes and a poison bit per lane (04 R174). -/
structure VCell where
  bits : VReg := 0
  poison : BitVec 64 := 0
  deriving DecidableEq, Repr

/-- An X register with its poison bit. -/
structure XCell where
  bits : Word64 := 0
  poison : Bool := false
  deriving DecidableEq, Repr

/-- A P register with its poison bit. -/
structure PCell where
  bits : BitVec 64 := 0
  poison : Bool := false
  deriving DecidableEq, Repr

/-- A fingerprint register: CRC state, initialised bit, poison bit and lines fed (05 R225). -/
structure FCell where
  crc : Word64 := 0
  init : Bool := false
  poison : Bool := false
  lines : Word := 0
  deriving DecidableEq, Repr

/-- Bank modes (04 Table 04.9). -/
inductive BankMode where
  | exact | xf | ffloat | fint
  deriving DecidableEq, Repr

/-- An accumulator bank: mode, alignment exponent, and the words that are not zero (04 R154, R160). -/
structure Bank where
  mode : BankMode := .exact
  ea : BitVec 16 := 0
  words : SMap AccWord := []
  deriving DecidableEq, Repr

/-- A weight tile: format code, element codes by r × 64 + c, scale bytes less 127 by c × nb + b (05 R204).
`scales` lists the scale bytes that are not 127. -/
structure Tile where
  fmt : BitVec 4 := 0
  loaded : Bool := false
  scaled : Bool := false
  poison : Bool := false
  elems : SMap (BitVec 16) := []
  scales : SMap Byte := []
  deriving DecidableEq, Repr

/-- A loop level (05 R194; 12 Table 12.4). -/
structure LoopLvl where
  trip : Nat := 0
  iter : Nat := 0
  start : Nat := 0
  deriving DecidableEq, Repr

/-- One register result of an operation that has issued and not completed (05 R186). -/
inductive RegWrite where
  | v (r : BitVec 6) (c : VCell)
  | x (r : BitVec 4) (c : XCell)
  | p (r : BitVec 3) (c : PCell)
  | f (r : BitVec 2) (c : FCell)
  | bank (r : BitVec 2) (b : Bank)
  | shadow (t : Tile)
  | corridor (gi : Nat)
  | present (key : Nat)
  deriving DecidableEq, Repr

/-- An operation in flight: the TREAD of its budgeted completion and what it writes then. -/
structure InFlight where
  due : Nat
  writes : List RegWrite
  deriving DecidableEq, Repr

/-- Gallery conditions (03 R120). -/
inductive GalCond where
  | healthy | suspect | fenced | rejoining
  deriving DecidableEq, Repr

/-- One position of the instruction store: which bundle of the stream it holds, its bits, whether an uncorrectable error has
been found in it (03 R93, R99), and the TREAD from which a fetched one is present (03 R102). -/
structure IBundle where
  index : Nat := 0
  bits : Bundle := 0
  held : Bool := false
  bad : Bool := false
  from_ : Nat := 0
  deriving DecidableEq, Repr

/-- A line waiting in a corridor receive buffer (03 R106). -/
structure RxLine where
  off : Nat
  line : Line
  poison : Bool
  deriving DecidableEq, Repr

/-- A gallery. `doneAt` holds by register (`Reg.code`) the TREAD of the last result written, `landAt` by line the TREAD at which
port T has written the line last delivered, `rxFreed` the TREADs at which port T takes lines out of the receive buffer
(02 R50), `memOut` those at which it takes lines out of the memory delivery buffer (06 R245). A scrub under way ends at TREAD
`scrubEnd` (12 R496). -/
structure Gallery where
  v : SMap VCell := []
  x : SMap XCell := []
  p : SMap PCell := []
  f : SMap FCell := []
  banks : SMap Bank := []
  active : Tile := {}
  shadow : Tile := {}
  loops : List LoopLvl := []
  inflight : List InFlight := []
  busy : SMap Nat := []
  istore : SMap IBundle := []
  fetched : Nat := 0
  poisoned : SMap Bool := []
  pend : List Nat := []
  rx : List RxLine := []
  rxFreed : List Nat := []
  memOut : List Nat := []
  doneAt : SMap Nat := []
  landAt : SMap Nat := []
  cond : GalCond := .healthy
  arith : BitVec 8 := 0
  ce : BitVec 16 := 0
  ue : BitVec 16 := 0
  stormWin : Nat := 0
  stormCe : SMap Nat := []
  stormDone : Bool := false
  walk : Option Nat := none
  walkFailed : Bool := false
  walkRec : Option (BitVec 512) := none
  passes : List Nat := []
  scrubbing : Bool := false
  scrubEnd : Nat := 0
  stamp : Option Word := none
  deriving DecidableEq, Repr

/-! ### Halls (03) -/

/-- Hall states (03 Table 03.1). -/
inductive HallSt where
  | absent | asleep | waking | idle | running | withdrawn | testing
  deriving DecidableEq, Repr

/-- A head slot of a hall (03 R99, R103). See 03 R100. -/
structure HeadSlot where
  flight : Option Nat := none
  present : Bool := false
  bad : Bool := false
  deriving DecidableEq, Repr

/-- Per-hall counters (02 Table 02.2, 03 Table 03.7, 13 Table 13.9). See 02 R54; 03 R127; 13 R541. -/
structure HallCnt where
  lagCur : BitVec 16 := 0
  lagMax : BitVec 16 := 0
  own : Word := 0
  wait : Word := 0
  treads : Word := 0
  boostReq : Word := 0
  holds : Word := 0
  groups : Word64 := 0
  launches : Word := 0
  tokens : Word := 0
  tokqMax : BitVec 16 := 0
  headLate : Word := 0
  mmaRows : Word64 := 0
  corrCw : Word := 0
  corrCcw : Word := 0
  limStretch : Word := 0
  limTreads : Word := 0
  thermIdle : Word := 0
  deriving DecidableEq, Repr

/-- Per-hall registers (03 Table 03.10, 04 Table 04.16, 10 Table 10.3, 06 Table 06.13). -/
structure HallReg where
  vmap : Word := 0
  mode : Word := 0
  asA0 : Bool := false
  pid : BitVec 16 := 0xB001
  pace : BitVec 2 := 0
  scrubEn : Bool := true
  scrubInt : BitVec 12 := 0x100
  scrubPend : Option (Bool × BitVec 12) := none
  deriving DecidableEq, Repr

/-- A hall's regulator and its thermal state (13 R515 to R529). `settled` lists the vcode at which the hall last
settled at each pace point, 0xFF where it has not. `wakeAt` is the TREAD at which the scrub of a waking hall ends,
`sampleAt` the TREAD from which the pace loop takes its next sample (R517). -/
structure HallPwr where
  vcode : Byte := 0
  temp : Byte := 0
  margin : Byte := 0
  iout : Byte := 0
  settled : List Byte := []
  hi : Nat := 0
  short : Nat := 0
  boost : Bool := false
  boostAsked : Option Nat := none
  receiving : Bool := false
  failed : Bool := false
  wakeAt : Option Nat := none
  sampleAt : Nat := 0
  stamp : Option Word := none
  deriving DecidableEq, Repr

/-- Where the issue of a hall stands (02 R39, R41, R45). `sched` is the scheduled slice tread of the last bundle,
`last` the TREAD of the last issue, `unmetOwn` and `unmetWait` the classes of the conditions not met at the last
try, `limited` the TREAD from which the limiter has refused the group, `scrubNext` the TREAD from which the next line may be
scrubbed. -/
structure HallIss where
  flight : Nat := 0
  slot : Nat := 0
  pc : Nat := 0
  sched : Word64 := 0
  last : Nat := 0
  lag : Nat := 0
  arrLag : Nat := 0
  stretches : Nat := 0
  stopped : Bool := false
  noCopy : Bool := false
  unmetOwn : Bool := false
  unmetWait : Bool := false
  limited : Option Nat := none
  scrubPtr : Nat := 0
  scrubNext : Nat := 0
  deriving DecidableEq, Repr

/-- A hall. See 03 R83, R84. -/
structure Hall where
  st : HallSt := .asleep
  iss : HallIss := {}
  heads : List HeadSlot := []
  cnt : HallCnt := {}
  reg : HallReg := {}
  pwr : HallPwr := {}
  deriving DecidableEq, Repr

/-! ### Package transport (06) -/

/-- An entry of an alcove or stairwell buffer: the line, its poison, and the TREAD from which it is present. -/
structure BufEnt where
  line : Line
  poison : Bool
  from_ : Nat
  deriving DecidableEq, Repr

/-- Where a stairwell line goes when it arrives. -/
inductive StwTo where
  | hall (ph die : Nat)
  | bayw (gi baddr p bay l : Nat)
  | store (gi off : Nat) (half : Bool)
  | hst (stack id k : Nat)
  | code (gi flight index : Nat)
  | copy (p bay l srcP srcBay : Nat) (last rel : Bool)
  | token (gi baddr p : Nat) (rec_ : BitVec 64)
  deriving DecidableEq, Repr

/-- A line on a stairwell: its two ends (0 to 3 compute die, 4 to 8 arcade, 9 atrium), whether it is scheduled,
the consecutive failures of its CRC, its contents and its destination (06 R240, R243). `at_` is the TREAD of the issue, by which
scheduled lines are ordered, `floor` a TREAD before which the line does not arrive (05 R228). -/
structure StwLine where
  src : Nat
  dst : Nat
  sched : Bool
  fails : Nat
  due : Nat
  line : Line
  poison : Bool
  dest : StwTo
  at_ : Nat := 0
  floor : Nat := 0
  deriving DecidableEq, Repr

/-- Package transport: alcove buffers (by producer × 4 + side), stairwell hall buffers (by consumer × 4 + peer die),
lines waiting for a stairwell frame, lines in flight, failed stairwells (by lower end × 16 + higher end), the
TREAD of the next stairwell frame, the buffers read at a tread (`freed`: key and TREAD; stairwell buffers count
from 256), whose entry is free from the next, the TREAD from which a buffer that was full has had room (`roomAt`, by the same
keys), and the places taken (`used`) in the frame that began at TREAD `usedAt`. -/
structure Xport where
  alcove : SMap (List BufEnt) := []
  stair : SMap (List BufEnt) := []
  waiting : List StwLine := []
  flying : List StwLine := []
  failed : List Nat := []
  next : Nat := 0
  freed : List (Nat × Nat) := []
  roomAt : SMap Nat := []
  used : SMap Nat := []
  usedAt : Nat := 0
  deriving DecidableEq, Repr

/-! ### Memory controllers (06) -/

/-- Kinds of a memory request. -/
inductive MemKind where
  | hld | hst | cfetch
  deriving DecidableEq, Repr

/-- A scheduled HBM operation that waits at a controller. `lines` holds the lines of an HST, `missing` how many of
them have still to arrive. -/
structure MemReq where
  id : Nat
  kind : MemKind
  gi : Nat
  vh : Nat
  flight : Nat
  baddr : Nat
  off : Nat
  store : Nat
  n : Nat
  win : Nat
  at_ : Nat
  poison : Bool
  missing : Nat
  lines : List (Line × Bool)
  floor : Nat := 0
  deriving DecidableEq, Repr

/-- A segment of a slot table (06 R254): its base frame, its entries, and the repetitions done of each. -/
structure SlotSeg where
  base : Nat
  ents : List (BitVec 128)
  prog : List Nat
  deriving DecidableEq, Repr

/-- The slot table of one running flight on a controller (06 R253, R254). `fetch`: a continuation entry has asked for
the segment at this HBM offset, with its base frame. -/
structure McFlight where
  flight : Nat
  slice : Nat
  e0 : Word64
  segs : List SlotSeg := []
  fetch : Option (Nat × Nat) := none
  deriving DecidableEq, Repr

/-- A commit region (06 Tables 06.8 to 06.10). -/
structure Creg where
  en : Bool := false
  base : BitVec 27 := 0
  len : BitVec 16 := 1
  sel : Bool := false
  armed : Bool := false
  wcnt : Word := 0
  deriving DecidableEq, Repr

/-- A memory controller with its stack. `debt` lists the refresh debts that are not 0, `opp` the TREAD at which the first
frame of an opportunistic refresh unit began, `busy` the TREAD until which a refresh unit holds a pseudo-channel, `tickAt` the
TREAD of the last rise of the debts, `waitLag` the delay of the entry that has waited longest, `scrubPtr` and `scrubDue` by
pseudo-channel the next row to scrub and the TREAD from which it may be. -/
structure MemCtl where
  flights : List McFlight := []
  reqs : List MemReq := []
  nextId : Nat := 0
  next : Nat := 0
  lagCur : BitVec 16 := 0
  lagMax : BitVec 16 := 0
  arrLag : Nat := 0
  waitLag : Nat := 0
  stopped : Bool := false
  debt : SMap Int := []
  tickAt : Option Nat := none
  opp : SMap Nat := []
  band : BitVec 2 := 0
  temp : Nat := 0
  forced : BitVec 16 := 0
  urgent : Word := 0
  busy : SMap Nat := []
  ceDie : BitVec 16 := 0
  ceLink : BitVec 16 := 0
  ue : BitVec 16 := 0
  plist : List Nat := []
  unusable : Bool := false
  selfref : Bool := false
  scrubEn : Bool := true
  scrubInt : BitVec 16 := 0x1000
  scrubPend : Option (Bool × BitVec 16) := none
  scrubPtr : SMap Nat := []
  scrubDue : SMap Nat := []
  cregs : SMap Creg := []
  deriving DecidableEq, Repr

/-! ### Fabric (07, 08, 09) -/

/-- A bay (08 R327 to R331). `present` and `poison` have a bit per bay line; `frames` counts verified frames of an
arriving parcel; `users` the transmissions that still read the bay; `expect` marks a bay that a RECV, REDUCE or COPY
expects and that is not complete, `doneAt` the TREAD at which it last became complete, `copied` one that a COPY fills. -/
structure Bay where
  lines : SMap Line := []
  present : BitVec 17 := 0
  poison : BitVec 17 := 0
  hdr : BitVec 128 := 0
  flags : Byte := 0
  expect : Bool := false
  frames : Nat := 0
  users : Nat := 0
  rel : Bool := false
  owner : Option Nat := none
  doneAt : Nat := 0
  copied : Bool := false
  deriving DecidableEq, Repr

/-- A timetable entry (08 Table 08.6), decoded. See 08 R335. -/
structure TtEnt where
  t : Nat
  period : Nat
  count1 : Nat
  slice : Nat
  op : Nat
  red : Nat
  rel : Bool
  bayA : Nat
  portA : Nat
  bayB : Nat
  portB : Nat
  arcB : Nat
  relay : Nat
  mask : BitVec 12
  pid : Word
  size : Nat
  vh : Nat
  en : Bool
  off : Nat
  deriving DecidableEq, Repr

/-- A segment buffer of a stream (08 R334): its base in slice treads, its entries, and the repetitions done. -/
structure Seg where
  base : Word64
  ents : List TtEnt
  prog : List Nat
  deriving DecidableEq, Repr

/-- A stream of a context (08 R333). `fetch`: a CONT has asked for the segment at this offset, with its base. -/
structure Stream where
  flight : Nat
  segs : List Seg
  fetch : Option (Nat × Word64)
  deriving DecidableEq, Repr

/-- An open RECV or REDUCE (08 R344): fired or opened early, matched or not, `done` once its parcel is complete, with its
missing-parcel TREAD. -/
structure Await where
  pid : Word
  bayP : Nat
  bay : Nat
  frames : Nat
  fired : Bool
  matched : Bool
  missAt : Nat
  openAt : Nat
  reduce : Bool
  red : Nat
  bPort : Nat
  bBay : Nat
  vh : Nat
  en : Bool
  done : Bool := false
  deriving DecidableEq, Repr

/-- A transmission in progress on a link for a context (08 R342, R346). `waiting`: the TREAD and the number of the slot in which its
next frame would have left. `at_` is the TREAD at which it started, `slot0` the slot of its last frame, `slots` how many slots its
frames have taken apart from waits. -/
structure TxJob where
  port : Nat
  bay : Nat
  frames : Nat
  next : Nat
  rel : Bool
  cls : Nat
  pid : Word
  waiting : Option (Nat × Nat)
  at_ : Nat := 0
  slot0 : Nat := 0
  slots : Nat := 0
  deriving DecidableEq, Repr

/-- A timetable context (08 R332, R343, R366, Table 08.14). `far` is the far end's context number, once a frame of it
has come (09 Tables 09.1, 09.2). `missed`: identifiers of parcels made placeholders, whose late copies are dropped (02 R49). `arrLag`
is the lag that the port brings to the present landing of its slice (02 R61). -/
structure Ctx where
  en : Bool := false
  half : Bool := false
  slice : Byte := 0
  wheel : BitVec 16 := 0
  cmask : Byte := 0
  bayHi : BitVec 7 := 0
  bayLo : BitVec 7 := 0
  dead : Bool := false
  streams : List Stream := []
  awaits : List Await := []
  jobs : List TxJob := []
  sCred : Nat := 0
  cCred : Nat := 0
  sHeld : Nat := 0
  cHeld : Nat := 0
  sFreed : Nat := 0
  cFreed : Nat := 0
  sSent : Nat := 0
  cSent : Nat := 0
  lagCur : BitVec 16 := 0
  lagMax : BitVec 16 := 0
  arrLag : Nat := 0
  miss : Word := 0
  filter : Word := 0
  far : Option Nat := none
  missed : List Word := []
  deriving DecidableEq, Repr

/-- A pending combine of an arcade's reduction unit (08 R348): the TREAD of its fire tread, and the next line. -/
structure Comb where
  at_ : Nat
  aPort : Nat
  aBay : Nat
  bPort : Nat
  bBay : Nat
  red : Nat
  line : Nat
  ctx : Nat
  pid : Word
  deriving DecidableEq, Repr

/-- An arcade: pending combines in list order and ARC_RED_LINES (08 Table 08.14). -/
structure Arcade where
  combs : List Comb := []
  redLines : Word64 := 0
  deriving DecidableEq, Repr

/-- A port (07 Table 07.14, 08 R356, 09 Table 09.8). Lane numbers are 0 to 8. `sub` is the data lane that the spare
replaces in the direction received, `subTx` in the direction sent; `laneFailTx` holds the lanes that the last training found failed there. `subst` is a substitution that the receiver has asked
for, `mirror` one that the transmitter has begun: the lane and the start. `laneWin` lists by lane the received frames, of the
last 1,048,576, in which a symbol of it was corrected, one entry for each symbol. See 07 R279. -/
structure Port where
  en : Bool := true
  spareEn : Bool := true
  sparePend : Option Bool := none
  outbox : List (BitVec 64) := []
  laneFail : BitVec 9 := 0
  laneFailTx : BitVec 9 := 0
  laneDegr : BitVec 9 := 0
  sub : Option Nat := none
  subTx : Option Nat := none
  subst : Option (Nat × Nat) := none
  mirror : Option (Nat × Nat) := none
  spares : BitVec 16 := 0
  laneSym : SMap Nat := []
  laneWin : SMap (List Nat) := []
  deriving DecidableEq, Repr

/-- The neighbour-table entry of a link (07 Tables 07.15, 07.16). -/
structure Nbr where
  chip : BitVec 16 := 0xFFFF
  arcade : BitVec 3 := 0
  index : BitVec 3 := 0
  half : BitVec 2 := 0
  version : BitVec 4 := 0
  map : BitVec 2 := 0
  state : BitVec 3 := 0
  width : BitVec 4 := 0
  deriving DecidableEq, Repr

/-- Link counters (08 Table 08.14, 09 Table 09.8). See 08 R365; 09 R409. -/
structure LinkCnt where
  tx : Word := 0
  rx : Word := 0
  drop : Word := 0
  idle : Word64 := 0
  fecCe : Word64 := 0
  fecUe : Word := 0
  hcrc : Word := 0
  replay : Word := 0
  dup : Word := 0
  rto : Word := 0
  ackbad : Word := 0
  retrain : Word := 0
  train : Word := 0
  pause : Word64 := 0
  deriving DecidableEq, Repr

/-- Link registers (09 Table 09.6, and the status bits of Table 09.7 that training sets). -/
structure LinkReg where
  rtoExtra : Byte := 0x10
  laneThr : Byte := 0x10
  autowidth : Bool := true
  mode : Bool := false
  leader : Bool := false
  fresh : Bool := false
  deriving DecidableEq, Repr

/-- A frame held in the replay buffer (09 R386): sequence number, the message, whether it is unscheduled, and the
TREAD at which it was last sent. -/
structure TxFrame where
  seq : BitVec 12
  kind : BitVec 2
  chan : BitVec 7
  data : BitVec 2496
  unsch : Bool
  sentAt : Nat
  deriving DecidableEq, Repr

/-- A parcel waiting for class C control, D or M slots, with the frames already sent. -/
structure TxParcel where
  chan : BitVec 7
  hdr : BitVec 128
  bytes : List Byte
  next : Nat
  deriving DecidableEq, Repr

/-- A parcel being reassembled on a channel (09 R376): where its frames go, how many are in, how many it has. -/
structure RxAsm where
  chan : Nat
  hdr : BitVec 128
  bayP : Nat
  bay : Nat
  next : Nat
  frames : Nat
  drop : Bool
  deriving DecidableEq, Repr

/-- A request side item that waits or is outstanding (09 R389, R391, R394). -/
structure Req where
  replay : Bool
  seq : BitVec 12
  sentAt : Option Nat
  deriving DecidableEq, Repr

/-- Sequence state of a link (09 R386 to R394). -/
structure LinkSeq where
  txSeq : BitVec 12 := 0
  rxN : BitVec 12 := 0
  rbuf : List TxFrame := []
  window : List TxFrame := []
  reqs : List Req := []
  replayQ : List (BitVec 12) := []
  replaying : Bool := false
  asm_ : List RxAsm := []
  ctlq : List TxParcel := []
  dq : List TxParcel := []
  mq : List TxParcel := []
  deriving DecidableEq, Repr

/-- A credit item to send: class (0 S, 1 C token, 2 C control, 3 D, 4 M), the far end's context number, the value,
and the copies still to send (09 R379, R381). -/
structure CredItem where
  cls : Nat
  ctx : Nat
  value : Nat
  left : Nat
  deriving DecidableEq, Repr

/-- Side items and time marks of a link (09 R377 to R385). -/
structure LinkSide where
  marks : List (Nat × Nat × Nat) := []
  creds : List CredItem := []
  echo : Option Nat := none
  markDue : Bool := false
  markOut : Option Nat := none
  lastMark : Nat := 0
  trips : List Nat := []
  delayL : Option Nat := none
  parentMark : Option (Nat × Nat) := none
  cCred : Nat := 2
  dCred : Nat := 16
  mCred : Nat := 4
  cHeld : Nat := 0
  dHeld : Nat := 0
  mHeld : Nat := 0
  cFreed : Nat := 0
  dFreed : Nat := 0
  mFreed : Nat := 0
  deriving DecidableEq, Repr

/-- Training phases of a link (09 R398 to R402). -/
inductive LinkPhase where
  | down | full | fast | waitResume | up
  deriving DecidableEq, Repr

/-- What a lane sends of a frame (09 R373): its port, its number, and its bits, the one sent first the highest. -/
structure LaneOut where
  port : Nat
  lane : Nat
  bits : Nat
  deriving DecidableEq, Repr

/-- A link (whole port, half or bonded pair, on its lower-numbered port). `anns`: the S and C bays of the far end's last
share announcement, by slice (08 R353). -/
structure Link where
  phase : LinkPhase := .down
  kept : Bool := false
  farFresh : Bool := true
  resumeAt : Nat := 0
  pauseAt : Option Nat := none
  width : Nat := 0
  slot : Nat := 0
  slotAt : Nat := 0
  slotFrac : Nat := 0
  rxCount : Nat := 0
  ueSlots : List Nat := []
  tx : Codeword := 0
  lanesOut : List LaneOut := []
  bcnSeq : BitVec 16 := 0
  bcnSent : Bool := false
  bcnAt : Nat := 0
  bcnHeard : Nat := 0
  pauses : List (Nat × Nat) := []
  nbr : Nbr := {}
  reg : LinkReg := {}
  cnt : LinkCnt := {}
  sq : LinkSeq := {}
  side : LinkSide := {}
  anns : SMap (Nat × Nat) := []
  deriving DecidableEq, Repr

/-- A control parcel that an arcade has to relay (08 R358). -/
inductive CtlParcel where
  | epoch (slice : Nat) (epoch sent : Word64)
  | hold (slice : Nat) (r : HoldReport)
  | release (slice : Nat) (r : Release)
  | report (slice : Nat) (r : CommitReport)
  | outcome (slice : Nat) (o : CommitOutcome)
  deriving DecidableEq, Repr

/-- An arrived parcel of class C control, D or M, kept until its receipt is acted on. Log 90 (DESIGN CHOICE). -/
structure InParcel where
  link : Nat
  hdr : BitVec 128
  bytes : List Byte
  bayP : Nat
  bay : Nat
  deriving DecidableEq, Repr

/-! ### Flights (10, 11) -/

/-- A run of a flight on the part: launch ordinal, base tread, end tread of its start landing, the landing index
taken last, and whether it was launched without halls (10 R422, R423; 03 R87). Log 34 (DEDUCED). -/
structure Run where
  k0 : Word
  base : Word64
  e0 : Word64
  idx : Nat
  woHalls : Bool
  deriving DecidableEq, Repr

/-- A resident flight. `offHalls` lists the virtual halls that are not running it (08 R364). -/
structure Flight where
  slice : Byte
  pid : BitVec 16
  grid : Nat
  flags : Byte
  lands : List LandEnt
  shares : List Share
  slotTabs : List (Nat × List (BitVec 128))
  tts : List (Nat × List (BitVec 256))
  cregs : List (Nat × Nat × Nat)
  need : BitVec 16
  succs : List Nat
  start : Word
  cand : Bool
  received : BitVec 16
  run : Option Run
  segsIn : List Nat
  ttsIn : List Nat
  offHalls : List Nat
  deriving DecidableEq, Repr

/-! ### Slices (02, 07, 12) -/

/-- Where a slice stands among its landings. -/
inductive LandPhase where
  | idle | running | landing | held | saved | failed
  deriving DecidableEq, Repr

/-- A kept epoch parcel (07 R615). -/
structure KeptEpoch where
  link : Nat
  chip : BitVec 16
  epoch : Word64
  sent : Word64
  at_ : Nat
  deriving DecidableEq, Repr

/-- What an admission fixes (07 Table 07.12). -/
structure SliceId where
  k : Nat := 0
  topo : Nat := 0
  pos : Nat := 0
  base : BitVec 16 := 0
  a : Nat := 0
  b : Nat := 0
  c : Nat := 0
  racks : List Nat := []
  master : BitVec 16 := 0
  lead : Word := 0
  deriving DecidableEq, Repr

/-- The landing a slice is in, or was in last (02 R55 to R76). Treads are slice treads, `readyAt` and `since` TREADs: at which the part
became ready, and since which it holds. `holdOrd` is the ordinal that a hold report names, `mcAt` what controllers that are no
agents brought to A: number, lag and refresh debts. -/
structure Landing where
  ord : Word := 0
  a : Word64 := 0
  w : Nat := 0
  d : Nat := 0
  commit : Bool := false
  quiesce : Bool := false
  branch : Bool := false
  last : Bool := false
  idle : Bool := false
  hallLag : Nat := 0
  hallPh : Nat := 0xFF
  mcLag : Nat := 0
  portLag : Nat := 0
  err : Int := 0
  items : SMap Nat := []
  others : Nat := 0
  stretches : Nat := 0
  reported : Bool := false
  ready : Bool := false
  readyAt : Nat := 0
  cause : Nat := 0
  holdPend : Bool := false
  holdOrd : Word := 0
  raised : Bool := false
  sent : Bool := false
  flags : BitVec 16 := 0
  launch : List Nat := []
  final : Bool := false
  holdLen : Word := 0
  released : Bool := false
  since : Nat := 0
  mcAt : List (Nat × Nat × SMap Int) := []
  deriving DecidableEq, Repr

/-- Error state and commit machinery of a slice (12 R488 to R494, R501). -/
structure SliceErr where
  cls : Byte := 0
  count : BitVec 16 := 0
  epoch : Word := 0
  snapshot : Byte := 0
  first : Option (BitVec 16 × Byte × Byte) := none
  records : Word := 0
  firstRec : Option (BitVec 512) := none
  wdog : Bool := false
  abortMark : Bool := false
  holdCommit : Bool := false
  holdNext : Option Word := none
  reports : List CommitReport := []
  outcome : Option CommitOutcome := none
  outcomeLate : Nat := 0
  saveReq : Option Word := none
  notice : Option (BitVec 512) := none
  noticeDue : Bool := false
  dropTo : Nat := 0
  commits : List (Word × Bool) := []
  deriving DecidableEq, Repr

/-- Telemetry of a slice since its admission (14 Table 14.8). -/
structure SliceTel where
  lastOrd : Word := 0
  anyEnded : Bool := false
  holds : Word := 0
  holdTreads : Word64 := 0
  stretches : Word64 := 0
  commits : Word := 0
  aborts : Word := 0
  lag : BitVec 16 := 0
  refLost : Bool := false
  deriving DecidableEq, Repr

/-- A register write that waits for a landing (11 R466). See 15 R575. -/
structure PendWrite where
  ord : Word
  off : Word
  value : Word
  hdr : DescHdr
  deriving DecidableEq, Repr

/-- An eviction that waits for a landing (11 R465). -/
structure PendEvict where
  ord : Word
  flight : Nat
  hdr : DescHdr
  deriving DecidableEq, Repr

/-- A slice as the part sees it. -/
structure Slice where
  admitted : Bool := false
  epochSet : Bool := false
  refused : Bool := false
  id : SliceId := {}
  epoch : Word64 := 0
  offset : Word64 := 0
  epochDiff : Word64 := 0
  phase : LandPhase := .idle
  started : Bool := false
  land : Landing := {}
  nextA : Word64 := 0
  reports : List HoldReport := []
  marks : List Word := []
  bvals : List (Word × BitVec 16) := []
  err : SliceErr := {}
  tel : SliceTel := {}
  kept : Option KeptEpoch := none
  evicts : List PendEvict := []
  writes : List PendWrite := []
  refLost : Bool := false
  deriving DecidableEq, Repr

/-! ### The foyer (11) -/

/-- A notice waiting for a free completion entry. -/
structure Notice where
  kind : Byte
  detail : Word64
  slice : Byte
  record : Option (BitVec 512)
  deriving DecidableEq, Repr

/-- A queue of the foyer (11 Tables 11.20 to 11.24, R443 to R458). -/
structure Queue where
  en : Bool := false
  cqRo : Bool := false
  sqLog : BitVec 4 := 4
  cqLog : BitVec 4 := 4
  slice : Byte := 0xFF
  chm : BitVec 16 := 0
  sqb : Word64 := 0
  cqb : Word64 := 0
  winEn : SMap Bool := []
  winBase : SMap (BitVec 27) := []
  winLen : SMap (BitVec 20) := []
  err : Bool := false
  idle : Bool := true
  late : Bool := false
  sqHead : BitVec 16 := 0
  lastDb : Word64 := 0
  cqHead : BitVec 16 := 0
  cqW : BitVec 16 := 0
  read : Nat := 0
  doing : Nat := 0
  notices : List Notice := []
  tenLo : Word := 0
  tenHi : Word := 0
  tenSeq : Word := 0
  tenAt : Nat := 0
  deriving DecidableEq, Repr

/-- A DMA transfer held in a register set (11 R467, 15 Table 15.9). `tokSlice` is the slice that the flight of its token had when the
descriptor was carried out (03 R111), `hid` the tag of the range hidden from scheduled operations, `tries` DMA_CH_CFG.retry as it was
when the transfer started (11 R482). Log 117 (DEDUCED). -/
structure DmaJob where
  op : Byte
  hdr : DescHdr
  d : DmaDesc
  data : List Byte
  ups : List Upset
  gated : Bool
  started : Bool
  done : Word
  retries : BitVec 3
  status : BitVec 16
  detail : Word64
  crc : Option Word64
  tokSlice : Byte := 0xFF
  hid : Nat := 0
  tries : BitVec 3 := 3
  deriving DecidableEq, Repr

/-- A DMA channel (11 Table 11.25). -/
structure Chan where
  retry : BitVec 3 := 3
  ro : Bool := false
  halt : Bool := false
  status : BitVec 16 := 0
  act : Option DmaJob := none
  shd : Option DmaJob := none
  wait : List DmaJob := []
  deriving DecidableEq, Repr

/-- A storage transfer in progress (11 R479). `left` counts the parcels not yet answered. -/
structure StorJob where
  op : Byte
  hdr : DescHdr
  d : DmaDesc
  gated : Bool
  left : Nat
  status : BitVec 16
  detail : Word64
  crc : Option Word64
  tokSlice : Byte := 0xFF
  hid : Nat := 0
  deriving DecidableEq, Repr

/-- The foyer's own state. -/
structure Foyer where
  linkStat : Word := 0
  poll : BitVec 12 := 4
  dbBase : Word64 := 0
  pollAt : Nat := 0
  stor : List StorJob := []
  storSeq : Word := 0
  msix : SMap (BitVec 128) := []
  pba : BitVec 16 := 0
  irqs : SMap Nat := []
  deriving DecidableEq, Repr

end Sys2Proof.Machine
end

