-- ==== Sys2Proof/Machine/State.lean ====
section
/-! DEFINITION. The state of the part, the reasons a step can stop, and the machine after reset. State is plain
data: every register, buffer, counter, mode and pin of the spec, and the queue of waiting commands.
-/
namespace Sys2Proof.Machine

/-- The grades (00 Table 00.1). -/
inductive Grade where
  | m | b | n
  deriving DecidableEq, Repr

/-- The steppings (00 R1). -/
inductive Stepping where
  | a0 | b0
  deriving DecidableEq, Repr

/-- What the factory and installation sections fix (14 Table 14.2): grade, stepping, suffix, the hall health map,
the settling vcode and target count of each hall and pace point (keys ph × 4 + pace), the defective monitors (keys
ph × 256 + monitor), and the installation map (entries keyed port × 2 + half: chip, arcade, index, half). Log 2 (DESIGN CHOICE). -/
structure Cfg where
  grade : Grade := .b
  stepping : Stepping := .b0
  suffix : Byte := 0x40
  absent : BitVec 64 := 0
  target : SMap Nat := []
  settle : SMap Nat := []
  defect : SMap Bool := []
  chip : BitVec 16 := 0xFFFF
  install : Word := 0
  map : SMap (Nat × Nat × Nat × Nat) := []
  ex : Nat := 1
  ey : Nat := 1
  ez : Nat := 1
  smbAddr : Byte := 0x4C
  deriving DecidableEq, Repr

/-- The tread counter (02 R29, R30) and the time bases' raw counts (14 R558): `frac` is the part of an oscillator
tick, in eighths, that has passed since the last tick of TB3. -/
structure Clk where
  tread : Word64 := 0
  running : Bool := false
  tb3 : Word64 := 0
  frac : Nat := 0
  deriving DecidableEq, Repr

/-- A pulse output (14 Table 14.13, R562): `next` is the pending time, `edge` the TB3 at which the pin last rose, `pulses` how often
it has. -/
structure Pulse where
  en : Bool := false
  mode : Bool := false
  base : BitVec 2 := 0
  width : BitVec 16 := 1
  t : Word64 := 0
  per : Word64 := 0
  next : Word64 := 0
  edge : Option Word64 := none
  pulses : Nat := 0
  deriving DecidableEq, Repr

/-- TIM_ registers of the part (02 Table 02.2, 13 Table 13.8, 14 Table 14.13, 15 Table 15.6). The bases TB1 and TB2
have keys 0 and 1. `idleGap` and `idleW` list the registers that differ from their reset values, by slice; `lrecN` counts the landing
records since part reset, `lrecFrom` those before the present ring was set. -/
structure Tim where
  base : SMap Word64 := []
  anchor : SMap Word64 := []
  rate : SMap Word := []
  stepLo : SMap Word := []
  stepHi : SMap Word := []
  snapSeq : BitVec 16 := 0
  snap : SMap Word64 := []
  pulses : SMap Pulse := []
  holdCount : Word := 0
  holdTreads : Word64 := 0
  lrecEn : Bool := false
  lrecBase : BitVec 27 := 0
  lrecLog : BitVec 5 := 8
  lrecN : Nat := 0
  lrecFrom : Nat := 0
  idleGap : SMap (BitVec 17) := []
  idleW : SMap Word := []
  refLost : Bool := false
  lostSeen : Bool := false
  locked : Bool := false
  ofs : BitVec 16 := 0
  everLocked : Bool := false
  deriving DecidableEq, Repr

/-- Stair-controller state, the same on all 64 controllers (03 R108, R109): tokens on their way (`transit`: flight
or branch value, ordinal, the slice of the source) and the token queue. `due` is the TREAD of the budgeted delivery, before which
the token does not arrive where `floor` holds (05 R228). -/
structure Token where
  branch : Bool
  flight : Nat
  ord : Word
  value : BitVec 16
  slice : Byte
  due : Nat := 0
  floor : Bool := false
  deriving DecidableEq, Repr

/-- The stair controllers: tokens in transit and tokens held. -/
structure Stair where
  transit : List Token := []
  queue : List Token := []
  deriving DecidableEq, Repr

/-- What the part-state megabyte of a save area holds (12 Table 12.4). `halls` lists them by virtual hall,
`fetched` how many bundles the galleries of each have fetched. -/
structure SavedPart where
  chip : BitVec 16
  slice : Nat
  k : Nat
  pos : Nat
  land : Landing
  offset : Word64
  epoch : Word
  cls : Byte
  count : BitVec 16
  regions : List (Nat × Nat × Bool × Bool)
  received : List (Nat × BitVec 16)
  tokens : List Token
  runs : List (Nat × Run)
  streams : List (Nat × List Stream)
  slots : List (Nat × List McFlight)
  halls : List (Nat × HallReg × HallIss)
  fetched : List (Nat × List Nat)
  deriving DecidableEq, Repr

/-- FLT_ registers and counters (12 Tables 12.7, 12.8), and the fault events of the present tread by source
(13 R536, R537). `waiting` holds records, with their sequence numbers, that were written while the main domain had no
power and have not reached the ring (12 R486). Log 67 (DEDUCED). `saves`, the model's own, lists what saves have written, by
which a restore knows what the bytes of a save area stand for. Log 32 (DESIGN CHOICE). `ringN` counts the records written since the
present fault ring was set (12 R486). Log 100 (DEDUCED). -/
structure Flt where
  storm : Byte := 0x40
  walkCe : Byte := 4
  repLim : BitVec 4 := 3
  cfgPend : Option (Byte × Byte × BitVec 4) := none
  ringBase : BitVec 27 := 0
  ringLog : BitVec 5 := 0x0C
  seq : Word := 0
  op : BitVec 2 := 0
  status : BitVec 3 := 0
  slice : Byte := 0xFF
  saveOrd : Word := 0
  saveBase : BitVec 27 := 0
  resumeOfs : Word64 := 0
  commits : Word := 0
  aborts : Word := 0
  walkPass : Word := 0
  walkFail : Word := 0
  rejoinRef : Word := 0
  records : Word := 0
  xingAt : Nat := 0
  xing : SMap Nat := []
  lost : BitVec 16 := 0
  ovrTel : Bool := false
  ovrCnt : Bool := false
  ovrFlt : Bool := false
  last : BitVec 512 := 0
  waiting : List (Nat × BitVec 512) := []
  saves : List SavedPart := []
  ringN : Nat := 0
  deriving DecidableEq, Repr

/-- PWR_ registers and the power manager (13). Energies are in fJ, by power window. `levels` are the supplies in mV, `sensorAt` the
TREAD from which the sensors are read next (R528). See 13 R509. -/
structure Pwr where
  state : BitVec 3 := 1
  in54 : Bool := false
  in12 : Bool := false
  v54 : Nat := 0
  v12 : Nat := 0
  vin : BitVec 16 := 0
  main : Bool := true
  iin : BitVec 16 := 0
  pin : BitVec 16 := 0
  wake : BitVec 64 := 0
  sleep : BitVec 64 := 0
  throttle : Byte := 0x5F
  hbmThr : Byte := 0x64
  thermPend : Option (Byte × Byte) := none
  evtCause : BitVec 4 := 0
  evtCount : Byte := 0
  evtSource : Byte := 0
  wakes : Word := 0
  boosts : Word := 0
  lastGroup : Option Nat := none
  window : Nat := 0
  spent : SMap Nat := []
  arcTemp : SMap Nat := []
  atrTemp : Nat := 0
  sensorAt : Nat := 0
  deriving DecidableEq, Repr

/-- The configuration flash as the part reads it (14 Tables 14.1, 14.2). `inst` is what the installation section holds,
`bytes` what FW_WRITE has written, by flash offset. -/
structure Flash where
  active : Bool := false
  floor : Word := 0
  counter : Word64 := 0
  salt : Word64 := 0
  fences : SMap Bool := []
  sealBroken : Bool := false
  idReset : Bool := false
  lowered : Bool := false
  pinned : Bool := false
  revoked : BitVec 4 := 0
  inst : Inst := {}
  bytes : SMap Byte := []
  deriving DecidableEq, Repr

/-- The security block, the steward and ATR_ registers (14). `boot` is SEC_STAT.boot, `bootTag` names what the last boot read for
the free values of its digests. -/
structure Sec where
  boot : BitVec 2 := 0
  booted : Bool := false
  instOk : Bool := false
  debug : Bool := false
  noRecord : Bool := false
  keyErased : Bool := false
  fwVer : Word := 0
  presence : BitVec 4 := 0
  presArg : Nat := 0
  presVer : Word := 0
  presAt : Nat := 0
  alert : BitVec 6 := 0
  restarts : BitVec 16 := 0
  lastCause : BitVec 2 := 0
  restartAt : List Nat := []
  stopped : Bool := false
  walkAll : Bool := false
  walkWait : Bool := false
  healthSet : Bool := false
  bootTag : Nat := 0
  fenced : BitVec 11 := 0
  absent : BitVec 7 := 0
  withdrawn : BitVec 7 := 0
  halls : BitVec 7 := 0
  stwResend : Word := 0
  flash : Flash := {}
  deriving DecidableEq, Repr

/-- SMBus and JTAG ports (14 R564 to R567) and the pins (16). `reply` is the last reply that RESULT returned,
`smbNone` that no command has come, `resetPend` a RESET whose result has not been read (true: part reset) with the TB3 at which it
is made all the same, `driven` what EXTEST drives, `strapsHeld` that the last part reset samples no straps. Log 93 (DESIGN CHOICE). -/
structure Pins where
  smbCode : Byte := 0
  smbStatus : Byte := 0
  smbData : List Byte := []
  smbNone : Bool := true
  reply : List Byte := []
  resetPend : Option Bool := none
  resetAt : Nat := 0
  report : List Byte := []
  ir : Byte := 0x01
  scan : Word := 0
  driven : Option Word := none
  tdo : Word := 0
  rstLow : Bool := false
  sealOpen : Bool := false
  strapLinkmap : Bool := false
  strapRole : Bool := false
  strapFlashv : Bool := false
  strapsHeld : Bool := false
  deriving DecidableEq, Repr

/-- Units whose counters and status cross to register reads (13 R536): a copy as last published. Log 16 (DEDUCED). -/
structure Pub where
  halls : SMap Hall := []
  gals : SMap Gallery := []
  mcs : SMap MemCtl := []
  ports : SMap Port := []
  links : SMap Link := []
  ctxs : SMap Ctx := []
  arcs : SMap Arcade := []
  deriving DecidableEq, Repr

/-- A range of part memory that a transfer into the part writes (11 R478): to scheduled operations its bytes are not defined, free values
of tag `tag`, until the landing of the slice and ordinal that the transfer's token names, or until the transfer completes where it
raises none. -/
structure Unseen where
  lo : Nat
  hi : Nat
  tag : Nat
  tok : Option (Nat × Word)
  deriving DecidableEq, Repr

/-- The part. -/
structure State where
  /-- Commands waiting, first in, first out. -/
  pending : List Instr := []
  cfg : Cfg := {}
  clk : Clk := {}
  /-- Bytes by part-local offset (06 R246): HBM and gallery stores. -/
  mem : List Host.Cell := []
  /-- Ranges of part memory whose contents the spec leaves undefined: low, high, tag of the free values. -/
  undef : List (Nat × Nat × Nat) := []
  /-- Ranges of part memory that scheduled operations do not see as transfers write them (11 R477, R478). -/
  unseen : List Unseen := []
  /-- Bytes of host memory that the foyer has written. -/
  hostMem : List Host.Cell := []
  hostUndef : List (Nat × Nat × Nat) := []
  upsets : List Upset := []
  halls : SMap Hall := []
  gals : SMap Gallery := []
  xport : Xport := {}
  mcs : SMap MemCtl := []
  linkmap : BitVec 2 := 0
  mesh2d : Bool := false
  bcnInt : Byte := 0x10
  ports : SMap Port := []
  links : SMap Link := []
  ctxs : SMap Ctx := []
  bays : SMap Bay := []
  arcs : SMap Arcade := []
  relays : List CtlParcel := []
  inbox : List InParcel := []
  flights : SMap (Option Flight) := []
  slices : SMap Slice := []
  stair : Stair := {}
  foyer : Foyer := {}
  queues : SMap Queue := []
  chans : SMap Chan := []
  tim : Tim := {}
  flt : Flt := {}
  pwr : Pwr := {}
  sec : Sec := {}
  pins : Pins := {}
  pub : Pub := {}
  /-- The model's own field: how many free values have been taken. -/
  freeCtr : Nat := 0
  deriving DecidableEq, Repr

/-- Why a step stops with a fault. Log 79 (DEDUCED). -/
inductive Fault where
  /-- Raised by a command that carries a value its encoding table reserves (00 R12, 05 R183): the spec gives such an
  operation no effect. Safe: the model stops. -/
  | reservedField
  /-- Raised by a command that names a unit which the grade of the part does not have (01 Table 01.1): there is
  nothing that could act. Safe: the model stops. -/
  | absentUnit
  deriving DecidableEq, Repr

/-- Why a step is refused. -/
inductive Refusal where
  /-- Raised by an arm of exec whose command has no meaning yet. Safe: the model stops. -/
  | notModelled (mnemonic : String)
  /-- Raised by VENDOR_DEBUG once DEBUG_UNLOCK has been carried out: the spec says that the vendor instructions then act, and not
  what they do (14 Table 14.12). Safe: the model stops. -/
  | vendorInstruction
  deriving DecidableEq, Repr

/-- What a meaning answers. -/
abbrev Out := Host.Outcome State Fault Refusal

/-- The part right after reset, before boot: an AVM-12B-64 of stepping B0 with nothing admitted, nothing resident,
every hall asleep, every link down, main power off, every register at its reset value, and the contents of HBM and of
the gallery stores undefined (log entries 2, 3, 4). Log 3 (DESIGN CHOICE). Log 4 (DESIGN CHOICE). -/
def State.reset : State :=
  { queues := [(0, { chm := 0xFFFF })]
    undef := [(0, 0x100080000000, 0)] }

end Sys2Proof.Machine
end

