-- ==== Sys2Proof/Machine/Topo.lean ====
section
/-! DEFINITION. What the grade and the link map fix: sites, stacks, arcades, ports, forms and roles
(01 Tables 01.1, 01.2; 07 Tables 07.1, 07.4, 07.5), alcove sides (06 Table 06.1), slice positions and the slice tree
(07 R293 to R299, R314).
-/
namespace Sys2Proof.Machine

/-- Stacks of a grade (01 Table 01.2). -/
def stacksOf : Grade → Nat
  | .m => 14
  | .b => 12
  | .n => 10

/-- Arcades of a grade (00 Table 00.1). -/
def arcadesOf : Grade → Nat
  | .m => 1
  | .b => 3
  | .n => 5

/-- Ports of a grade (00 Table 00.1). See 01 R18. -/
def portsOf (g : Grade) : Nat := 6 * arcadesOf g

/-- The site of stack `s` (01 R19: stacks stand in ascending site number). -/
def siteOfStack (s : Nat) : Nat := s

/-- The compute die that site `t` abuts (01 Table 01.1). -/
def dieOfSite : Nat → Nat
  | 0 | 1 | 2 | 12 => 0
  | 3 | 4 | 5 | 13 => 1
  | 6 | 7 | 10 => 2
  | _ => 3

/-- The compute die of stack `s` (01 R17). -/
def dieOfStack (s : Nat) : Nat := dieOfSite (siteOfStack s)

/-- The compute die of hall `ph` (00 Table 00.5). -/
def dieOfHall (ph : Nat) : Nat := ph / 16

/-- Bytes of one stack (01 R19). -/
def stackBytes : Nat := 0x1400000000

/-- Bytes of HBM on a grade (06 Table 06.4). -/
def hbmBytes (g : Grade) : Nat := stacksOf g * stackBytes

/-- The first offset of the gallery stores (06 Table 06.4). -/
def storeBase : Nat := 0x100000000000

/-- Bytes of one gallery store (03 R89). -/
def storeBytes : Nat := 0x140000

/-- The part-local offset of byte `o` of the store of gallery `gi` (06 Table 06.4). -/
def storeAddr (gi o : Nat) : Nat := storeBase + gi * 0x200000 + o

/-- The global gallery index (00 Table 00.5). -/
def galIdx (ph g : Nat) : Nat := ph * 16 + g

/-- The neighbour of hall `ph` across alcove side `side`, none where the side is absent (06 R232, Table 06.1). See 06 R233. -/
def alcoveNbr (ph side : Nat) : Option Nat :=
  let h := ph % 16
  let b := ph - h
  match side with
  | 0 => if h / 4 = 0 then none else some (b + h - 4)
  | 1 => if h % 4 = 3 then none else some (b + h + 1)
  | 2 => if h / 4 = 3 then none else some (b + h + 4)
  | _ => if h % 4 = 0 then none else some (b + h - 1)

/-- The mirror hall of `ph` on die `d` (06 R241). -/
def mirror (ph d : Nat) : Nat := d * 16 + ph % 16

/-- The form of a port (07 Table 07.1). -/
inductive PortForm where
  | whole | bif | bond
  deriving DecidableEq, Repr

/-- Form, role of the whole port or half A, and role of half B (07 Tables 07.4, 07.5; 0xFF unassigned). -/
def portRole (g : Grade) (linkmap : BitVec 2) (mesh2d : Bool) (p : Nat) : PortForm × Nat × Nat :=
  if linkmap = 0 then
    match g with
    | .m => (.whole, 0xFF, 0xFF)
    | .b =>
      if p < 10 then (.bond, p / 2, 0xFF)
      else if p < 12 then (.whole, 0x20, 0xFF)
      else if p < 16 then (.bif, 5 + 2 * (p - 12), 6 + 2 * (p - 12))
      else (.whole, 0x20, 0xFF)
    | .n =>
      if p < 10 then (.bond, p / 2, 0xFF)
      else if p < 12 then (.whole, 0x20, 0xFF)
      else if p < 20 then (.whole, p - 7, 0xFF)
      else (.whole, 0x20, 0xFF)
  else
    let store : Bool :=
      match g with
      | .m => mesh2d && linkmap = 1 && (p = 4 || p = 5)
      | .b => p = 10 || p = 11 || p = 16 || p = 17
      | .n => p = 10 || p = 11 || p ≥ 20
    if store then (.whole, 0x20, 0xFF)
    else if g = .m || linkmap = 2 then
      if p < 6 then (.whole, 0x10 + p, 0xFF) else (.whole, 0xFF, 0xFF)
    else if p < 8 then (.bond, 0x10 + p / 2, 0xFF)
    else if p < 10 then (.bond, if mesh2d then 0xFF else 0x14, 0xFF)
    else if p = 12 || p = 13 then (.bond, if mesh2d then 0xFF else 0x15, 0xFF)
    else (.whole, 0xFF, 0xFF)

/-- The role of link `h` of port `p`. See 07 R281, R282, R286, R287. -/
def State.role (s : State) (p h : Nat) : Nat :=
  let r := portRole s.cfg.grade s.linkmap s.mesh2d p
  if h = 0 then r.2.1 else r.2.2

/-- The link is a storage port: classes D and M only (07 R301). -/
def State.storageLink (s : State) (p h : Nat) : Bool := s.role p h = 0x20

/-- The form of port `p`; a bonded form with no role is a whole unassigned port (07 Table 07.5). See 07 R281. -/
def State.form (s : State) (p : Nat) : PortForm :=
  let r := portRole s.cfg.grade s.linkmap s.mesh2d p
  if r.2.1 = 0xFF ∧ r.1 = .bond then .whole else r.1

/-- The port whose registers and contexts serve the link that port `p` belongs to (08 R332, 09 R408). Log 43 (DEDUCED). -/
def State.lowPort (s : State) (p : Nat) : Nat :=
  match s.form p with
  | .bond => p - p % 2
  | _ => p

/-- Port `p` exists on the grade. -/
def State.hasPort (s : State) (p : Nat) : Bool := p < portsOf s.cfg.grade

/-- Link `h` of port `p` exists: half B only on a bifurcated port (07 R320). -/
def State.hasLink (s : State) (p h : Nat) : Bool :=
  s.hasPort p && (h = 0 || s.form p = .bif)

/-- Stack `k` exists on the grade. -/
def State.hasStack (s : State) (k : Nat) : Bool := k < stacksOf s.cfg.grade

/-- The full width of a link (09 Table 09.4). -/
def fullWidth : PortForm → Nat
  | .whole => 8
  | .bif => 4
  | .bond => 16

/-- The replay buffer's capacity in frames (09 Table 09.3). -/
def rbufCap : PortForm → Nat
  | .bond => 3276
  | .whole => 1638
  | .bif => 819

/-- The least width of a link (09 Table 09.4). -/
def leastWidth : PortForm → Nat
  | .bond => 2
  | _ => 1

/-- Role `b` pairs with role `a` (07 Table 07.3). See 07 R285. -/
def rolePairs (a b : Nat) : Bool :=
  if a ≤ 0x0C then b = a
  else if a = 0x10 then b = 0x11
  else if a = 0x11 then b = 0x10
  else if a = 0x12 then b = 0x13
  else if a = 0x13 then b = 0x12
  else if a = 0x14 then b = 0x15
  else if a = 0x15 then b = 0x14
  else if a = 0x20 then b = 0x20
  else false

/-- A role value of Table 07.3 that is not reserved. -/
def roleOk (r : Nat) : Bool := r ≤ 0x0C || (0x10 ≤ r && r ≤ 0x15) || r = 0x20 || r = 0xFF

/-- Number of ones in a number of at most `n` bits. -/
def ones : Nat → Nat → Nat
  | 0, _ => 0
  | n + 1, x => x % 2 + ones n (x / 2)

/-- Exclusive or of slice positions. -/
def pxor (a b : Nat) : Nat := (BitVec.ofNat 16 a ^^^ BitVec.ofNat 16 b).toNat

/-- The neighbour of position `x` across dimension `d` (07 R295). -/
def cubeNbr (x d : Nat) : Nat :=
  let y := pxor x (2 ^ d)
  if d ≥ 5 ∧ ones 13 (x % 2 ^ d / 4) % 2 = 1 then pxor y 3 else y

/-- The index of an entry in a list, none when it is absent. -/
def idxOf (l : List Nat) (x : Nat) : Option Nat :=
  match l with
  | [] => none
  | y :: ys => if y = x then some 0 else (idxOf ys x).map (· + 1)

/-- Coordinates of chip `c` under extents X and Y (07 R297). -/
def coords (ex ey c : Nat) : Nat × Nat × Nat := (c % ex, c / ex % ey, c / (ex * ey))

/-- The slice position of a chip number, none when it is no member (07 R293, R299). -/
def positionOf (cfg : Cfg) (i : SliceId) (chip : Nat) : Option Nat :=
  if chip > 0x1FFF then none
  else if i.topo = 0 then
    if i.k ≤ 5 then
      if i.base.toNat ≤ chip ∧ chip < i.base.toNat + 2 ^ i.k then some (chip - i.base.toNat) else none
    else (idxOf i.racks (chip / 32)).map (fun r => r * 32 + chip % 32)
  else
    let c0 := coords cfg.ex cfg.ey i.base.toNat
    let c := coords cfg.ex cfg.ey chip
    if c0.1 ≤ c.1 ∧ c.1 < c0.1 + 2 ^ i.a ∧ c0.2.1 ≤ c.2.1 ∧ c.2.1 < c0.2.1 + 2 ^ i.b ∧ c0.2.2 ≤ c.2.2
        ∧ c.2.2 < c0.2.2 + 2 ^ i.c then
      some ((c.1 - c0.1) + 2 ^ i.a * (c.2.1 - c0.2.1) + 2 ^ (i.a + i.b) * (c.2.2 - c0.2.2))
    else none

/-- The chip number at a slice position (07 R293, R299). -/
def chipAt (cfg : Cfg) (i : SliceId) (pos : Nat) : Nat :=
  if i.topo = 0 then
    if i.k ≤ 5 then i.base.toNat + pos
    else i.racks.getD (pos / 32) 0 * 32 + pos % 32
  else
    let c0 := coords cfg.ex cfg.ey i.base.toNat
    let x := c0.1 + pos % 2 ^ i.a
    let y := c0.2.1 + pos / 2 ^ i.a % 2 ^ i.b
    let z := c0.2.2 + pos / 2 ^ (i.a + i.b)
    x + cfg.ex * y + cfg.ex * cfg.ey * z

/-- The master's chip number (07 R313). -/
def masterChip (i : SliceId) : Nat :=
  if i.master = 0xFFFF then
    if i.topo = 0 ∧ i.k ≥ 6 then (i.racks.foldl min 255) * 32 else i.base.toNat
  else i.master.toNat

/-- The highest set bit among bits `n` to 2 of `v`. -/
def topBit : Nat → Nat → Option Nat
  | 0, _ => none
  | n + 1, v => if n + 1 ≥ 2 ∧ v / 2 ^ (n + 1) % 2 = 1 then some (n + 1) else topBit n v

/-- The role through which a member reaches its parent in the slice tree, and the parent's position; none at the
master (07 R314). -/
def treeParent (i : SliceId) (pos mpos : Nat) : Option (Nat × Nat) :=
  if pos = mpos then none
  else if i.topo = 0 then
    let v := pxor pos mpos
    match topBit 12 v with
    | some d => some (d, cubeNbr pos d)
    | none =>
      if v / 2 % 2 = 1 then some (1, cubeNbr pos 1) else some (0, cubeNbr pos 0)
  else
    let sx := 2 ^ i.a
    let sy := 2 ^ i.b
    let x := pos % sx
    let y := pos / sx % sy
    let z := pos / (sx * sy)
    let mx := mpos % sx
    let my := mpos / sx % sy
    let mz := mpos / (sx * sy)
    if z < mz then some (0x14, pos + sx * sy)
    else if mz < z then some (0x15, pos - sx * sy)
    else if y < my then some (0x12, pos + sx)
    else if my < y then some (0x13, pos - sx)
    else if x < mx then some (0x10, pos + 1)
    else some (0x11, pos - 1)

/-- The position that a role of a slice leads to, none where the slice does not use the role (07 R294, R295, R298,
R299). -/
def roleTarget (cfg : Cfg) (i : SliceId) (pos role : Nat) : Option Nat :=
  if i.topo = 0 then if role < i.k then some (cubeNbr pos role) else none
  else
    let sx := 2 ^ i.a
    let sy := 2 ^ i.b
    let sz := 2 ^ i.c
    let x := pos % sx
    let y := pos / sx % sy
    let z := pos / (sx * sy)
    let wrap := fun (side ext : Nat) => decide (i.topo = 2 ∧ side = ext ∧ side > 1)
    match role with
    | 0x10 => if x + 1 < sx then some (pos + 1) else if wrap sx cfg.ex then some (pos - x) else none
    | 0x11 => if 0 < x then some (pos - 1) else if wrap sx cfg.ex then some (pos + (sx - 1)) else none
    | 0x12 => if y + 1 < sy then some (pos + sx) else if wrap sy cfg.ey then some (pos - y * sx) else none
    | 0x13 => if 0 < y then some (pos - sx) else if wrap sy cfg.ey then some (pos + (sy - 1) * sx) else none
    | 0x14 => if z + 1 < sz then some (pos + sx * sy) else if wrap sz cfg.ez then some (pos - z * sx * sy) else none
    | 0x15 => if 0 < z then some (pos - sx * sy) else if wrap sz cfg.ez then some (pos + (sz - 1) * sx * sy)
        else none
    | _ => none

/-- Every link of the grade: lower-numbered ports of bonded pairs, whole ports, and halves. -/
def State.allLinks (s : State) : List (Nat × Nat) :=
  (List.range (portsOf s.cfg.grade)).flatMap (fun p =>
    match s.form p with
    | .bond => if p % 2 = 0 then [(p, 0)] else []
    | .whole => [(p, 0)]
    | .bif => [(p, 0), (p, 1)])

/-- The links that an admitted slice uses (07 R294). -/
def State.linksOf (s : State) (i : SliceId) : List (Nat × Nat) :=
  s.allLinks.filter (fun l => (roleTarget s.cfg i i.pos (s.role l.1 l.2)).isSome)

/-- The link whose role is `r`. -/
def State.linkOfRole (s : State) (r : Nat) : Option (Nat × Nat) :=
  s.allLinks.find? (fun l => s.role l.1 l.2 = r)

/-- The link to the parent in the slice tree. -/
def State.parentLink (s : State) (i : SliceId) : Option (Nat × Nat) :=
  match positionOf s.cfg i (masterChip i) with
  | none => none
  | some m =>
    match treeParent i i.pos m with
    | none => none
    | some (r, _) => s.linkOfRole r

/-- The links to the children in the slice tree: those whose far position has this part as its parent. -/
def State.childLinks (s : State) (i : SliceId) : List (Nat × Nat) :=
  match positionOf s.cfg i (masterChip i) with
  | none => []
  | some m =>
    (s.linksOf i).filter (fun l =>
      match roleTarget s.cfg i i.pos (s.role l.1 l.2) with
      | none => false
      | some q =>
        match treeParent i q m with
        | some (r, q') => q' = i.pos && rolePairs (s.role l.1 l.2) r
        | none => false)

end Sys2Proof.Machine
end

