-- ==== Sys2Proof/Machine/Ops.lean ====
section
/-! DEFINITION. The named operations over the state that the meanings share: counters and bytes, time, units, memory,
check errors, suspect galleries, fault records, completions and notices.
-/
namespace Sys2Proof.Machine

/-! ### Numbers and bytes -/

/-- `x` plus `n`, staying at the largest value (02 R54). -/
def satAdd {w : Nat} (x : BitVec w) (n : Nat) : BitVec w := BitVec.ofNat w (min (x.toNat + n) (2 ^ w - 1))

/-- One of the outcomes that apply, which one free when there are several. -/
def oneOf {α : Type} (seed : List Nat) (l : List α) : Option α :=
  match l with
  | [] => none
  | [x] => some x
  | x :: _ => some (l.getD (Config.choice seed % l.length) x)

/-- A saturating count of one more event. -/
def satInc {w : Nat} (x : BitVec w) : BitVec w := satAdd x 1

/-- The larger of two values. -/
def bvMax {w : Nat} (x y : BitVec w) : BitVec w := if x.toNat < y.toNat then y else x

/-- `n` bytes of `v`, least significant first. -/
def leBytes : Nat → Nat → List Byte
  | 0, _ => []
  | n + 1, v => BitVec.ofNat 8 v :: leBytes n (v / 256)

/-- The number that bytes give, least significant first. -/
def leNat : List Byte → Nat
  | [] => 0
  | b :: bs => b.toNat + 256 * leNat bs

/-- Bytes of a bit vector, least significant first. -/
def bvBytes {w : Nat} (n : Nat) (v : BitVec w) : List Byte := leBytes n v.toNat

/-- `n` copies of zero. -/
def zeros (n : Nat) : List Byte := List.replicate n 0

/-- One CRC-64 step of 05 R225 on a bit. -/
def crcBit (s : Word64) : Word64 :=
  if s.getLsbD 0 then (s >>> 1) ^^^ 0xC96C5795D7870F42#64 else s >>> 1

/-- One byte fed into a CRC-64 state (05 R225). -/
def crcByte (s : Word64) (b : Byte) : Word64 :=
  crcBit (crcBit (crcBit (crcBit (crcBit (crcBit (crcBit (crcBit (s ^^^ b.zeroExtend 64))))))))

/-- Bytes fed into a CRC-64 state in order. -/
def crcBytes (s : Word64) : List Byte → Word64
  | [] => s
  | b :: bs => crcBytes (crcByte s b) bs

/-- The CRC-64 of a byte string: initial value and final inversion of 05 R225. -/
def crc64 (bs : List Byte) : Word64 := crcBytes 0xFFFFFFFFFFFFFFFF#64 bs ^^^ 0xFFFFFFFFFFFFFFFF#64

/-! ### Time (02 R29 to R33, 14 R558) -/

/-- TREAD as a number. -/
def State.now (s : State) : Nat := s.clk.tread.toNat

/-- The state after `n` treads: TREAD counts while it runs; the atrium oscillator, at 1 GHz, makes 5/8 of a tick in
each tread (log entry 6, DESIGN CHOICE). See 02 R31. -/
def State.passTreads (s : State) (n : Nat) : State :=
  let f := s.clk.frac + 5 * n
  { s with clk := { s.clk with
      tread := if s.clk.running then s.clk.tread + BitVec.ofNat 64 n else s.clk.tread
      tb3 := s.clk.tb3 + BitVec.ofNat 64 (f / 8)
      frac := f % 8 } }

/-- The state at TREAD `t`, or unchanged when that tread has come or TREAD stands still. Log 8 (DESIGN CHOICE). -/
def State.waitUntil (s : State) (t : Nat) : State :=
  if s.clk.running && decide (s.now < t) then s.passTreads (t - s.now) else s

/-! ### Units -/

def State.hall (s : State) (ph : Nat) : Hall := SMap.get {} s.halls ph
def State.setHall (s : State) (ph : Nat) (h : Hall) : State := { s with halls := SMap.set {} s.halls ph h }
def State.updHall (s : State) (ph : Nat) (f : Hall → Hall) : State := s.setHall ph (f (s.hall ph))
def State.gal (s : State) (gi : Nat) : Gallery := SMap.get {} s.gals gi
def State.setGal (s : State) (gi : Nat) (g : Gallery) : State := { s with gals := SMap.set {} s.gals gi g }
def State.updGal (s : State) (gi : Nat) (f : Gallery → Gallery) : State := s.setGal gi (f (s.gal gi))
def State.mc (s : State) (k : Nat) : MemCtl := SMap.get {} s.mcs k
def State.updMc (s : State) (k : Nat) (f : MemCtl → MemCtl) : State :=
  { s with mcs := SMap.set {} s.mcs k (f (s.mc k)) }
def State.port (s : State) (p : Nat) : Port := SMap.get {} s.ports p
def State.updPort (s : State) (p : Nat) (f : Port → Port) : State :=
  { s with ports := SMap.set {} s.ports p (f (s.port p)) }
/-- Links have key 2p + h. -/
def State.link (s : State) (l : Nat) : Link := SMap.get {} s.links l
def State.updLink (s : State) (l : Nat) (f : Link → Link) : State :=
  { s with links := SMap.set {} s.links l (f (s.link l)) }
/-- Contexts have key 64p + n. -/
def State.ctx (s : State) (c : Nat) : Ctx := SMap.get {} s.ctxs c
def State.updCtx (s : State) (c : Nat) (f : Ctx → Ctx) : State :=
  { s with ctxs := SMap.set {} s.ctxs c (f (s.ctx c)) }
/-- Bays have key 128p + b. -/
def State.bay (s : State) (b : Nat) : Bay := SMap.get {} s.bays b
def State.updBay (s : State) (b : Nat) (f : Bay → Bay) : State :=
  { s with bays := SMap.set {} s.bays b (f (s.bay b)) }
def State.arc (s : State) (a : Nat) : Arcade := SMap.get {} s.arcs a
def State.updArc (s : State) (a : Nat) (f : Arcade → Arcade) : State :=
  { s with arcs := SMap.set {} s.arcs a (f (s.arc a)) }
def State.flight (s : State) (f : Nat) : Option Flight := SMap.get none s.flights f
def State.setFlight (s : State) (f : Nat) (x : Option Flight) : State :=
  { s with flights := SMap.set none s.flights f x }
def State.updFlight (s : State) (f : Nat) (u : Flight → Flight) : State := s.setFlight f ((s.flight f).map u)
def State.sl (s : State) (k : Nat) : Slice := SMap.get {} s.slices k
def State.updSl (s : State) (k : Nat) (f : Slice → Slice) : State :=
  { s with slices := SMap.set {} s.slices k (f (s.sl k)) }
def State.queue (s : State) (q : Nat) : Queue := SMap.get {} s.queues q
def State.updQueue (s : State) (q : Nat) (f : Queue → Queue) : State :=
  { s with queues := SMap.set {} s.queues q (f (s.queue q)) }
def State.chan (s : State) (c : Nat) : Chan := SMap.get {} s.chans c
def State.updChan (s : State) (c : Nat) (f : Chan → Chan) : State :=
  { s with chans := SMap.set {} s.chans c (f (s.chan c)) }

/-- The state with `f` applied for each element of a list in order. -/
def State.each {α : Type} (s : State) (l : List α) (f : State → α → State) : State := l.foldl f s

/-- Admitted slices in ascending number. -/
def State.admitted (s : State) : List Nat := (SMap.keys s.slices).filter (fun k => (s.sl k).admitted)

/-- Resident flights in ascending index, with their data. -/
def State.resident (s : State) : List (Nat × Flight) :=
  s.flights.filterMap (fun e => e.2.map (fun f => (e.1, f)))

/-- Flights that run on the part. -/
def State.runningFlights (s : State) : List (Nat × Flight) := s.resident.filter (fun e => e.2.run.isSome)

/-- Slices with a running flight on the part. -/
def State.runningSlices (s : State) : List Nat :=
  s.admitted.filter (fun k => s.runningFlights.any (fun e => e.2.slice.toNat = k))

/-- The slice that HAL_VMAP gives a hall, none when it is not mapped (03 Table 03.10). -/
def Hall.mapped (h : Hall) : Option Nat :=
  if h.reg.vmap.getLsbD 31 then some (h.reg.vmap.extractLsb' 16 8).toNat else none

/-- The virtual hall a hall carries. Log 87 (DEDUCED). -/
def Hall.vh (h : Hall) : Nat := (h.reg.vmap.extractLsb' 0 6).toNat

/-- The halls mapped to slice `k`, ascending. -/
def State.hallsOf (s : State) (k : Nat) : List Nat :=
  (SMap.keys s.halls).filter (fun ph => decide ((s.hall ph).mapped = some k))

/-- The slice tread of slice `k` (02 R32). -/
def State.sliceTread (s : State) (k : Nat) : Word64 := s.clk.tread - (s.sl k).epoch - (s.sl k).offset

/-- The TREAD at which the slice tread of slice `k` is `t` (02 R32, R80). -/
def State.rawOf (s : State) (k : Nat) (t : Word64) : Nat := ((s.sl k).epoch + (s.sl k).offset + t).toNat

/-- The slice treads that have passed since slice tread `t`, 0 when it lies ahead. -/
def State.since (s : State) (k : Nat) (t : Word64) : Nat := s.now - s.rawOf k t

/-! ### Memory -/

/-- Whether the main domain has power (13 Table 13.3: main on). -/
def State.mainOn (s : State) : Bool := s.pwr.state = 3#3

/-- The tag of the undefined range that holds an address. -/
def undefTag : List (Nat × Nat × Nat) → Nat → Option Nat
  | [], _ => none
  | (lo, hi, t) :: l, a => if lo ≤ a ∧ a < hi then some t else undefTag l a

/-- Ranges with the addresses from `lo` to below `hi` taken out. -/
def undefCut (lo hi : Nat) (l : List (Nat × Nat × Nat)) : List (Nat × Nat × Nat) :=
  l.flatMap (fun (a, b, t) =>
    if hi ≤ a ∨ b ≤ lo then [(a, b, t)]
    else (if a < lo then [(a, lo, t)] else []) ++ (if hi < b then [(hi, b, t)] else []))

/-- The byte at an address: a free value where the contents are undefined; 0 where nothing has been written since the
scrub of R266 cleared it. -/
def memGet (mem : List Host.Cell) (undef : List (Nat × Nat × Nat)) (a : Nat) : Byte :=
  match undefTag undef a with
  | some t => Config.freeByte t a
  | none => SMap.get 0 mem a

/-- Bytes written from address `a` upward. -/
def memPut (mem : List Host.Cell) : Nat → List Byte → List Host.Cell
  | _, [] => mem
  | a, b :: bs => memPut (SMap.set 0 mem a b) (a + 1) bs

/-- One byte of part memory. -/
def State.readByte (s : State) (a : Nat) : Byte := memGet s.mem s.undef a

/-- One byte of part memory as a scheduled operation reads it: a free value where a transfer is writing (11 R477, R478). -/
def State.schedByte (s : State) (a : Nat) : Byte :=
  match undefTag (s.unseen.map (fun u => (u.lo, u.hi, u.tag))) a with
  | some t => Config.freeByte t a
  | none => s.readByte a

/-- `n` bytes of part memory from `a`. -/
def State.readBytes (s : State) (a n : Nat) : List Byte := (List.range n).map (fun i => s.readByte (a + i))

/-- Bytes written to part memory. -/
def State.writeBytes (s : State) (a : Nat) (bs : List Byte) : State :=
  { s with mem := memPut s.mem a bs, undef := undefCut a (a + bs.length) s.undef }

/-- One line of part memory. -/
def State.readLine (s : State) (a : Nat) : Line := BitVec.ofNat 4096 (leNat (s.readBytes a 512))

/-- One line of part memory as a scheduled operation reads it. -/
def State.schedLine (s : State) (a : Nat) : Line := BitVec.ofNat 4096 (leNat ((List.range 512).map (fun i => s.schedByte (a + i))))

/-- One line written. -/
def State.writeLine (s : State) (a : Nat) (l : Line) : State := s.writeBytes a (bvBytes 512 l)

/-- Cells outside a range. -/
def cellsOutside (lo hi : Nat) (m : List Host.Cell) : List Host.Cell := m.filter (fun c => c.1 < lo || hi ≤ c.1)

/-- The range made undefined under a fresh tag. -/
def State.undefine (s : State) (lo hi : Nat) : State :=
  { s with mem := cellsOutside lo hi s.mem
           undef := (lo, hi, s.freeCtr + 1) :: undefCut lo hi s.undef
           freeCtr := s.freeCtr + 1 }

/-- The range set to zero. -/
def State.zeroRange (s : State) (lo hi : Nat) : State :=
  { s with mem := cellsOutside lo hi s.mem, undef := undefCut lo hi s.undef }

/-- Bytes written to host memory. -/
def State.hostWrite (s : State) (a : Nat) (bs : List Byte) : State :=
  { s with hostMem := memPut s.hostMem a bs, hostUndef := undefCut a (a + bs.length) s.hostUndef }

/-- Stack and line key of an HBM offset. -/
def stackOf (off : Nat) : Nat := off / stackBytes

/-- An offset aligned down to a line. -/
def lineBase (off : Nat) : Nat := off - off % 512

/-! ### Fault records (12 R483 to R488, 13 R536, R537) -/

/-- What a fault record says beyond the part's own data: the crossing source, the unit, the named slice, the slices
whose error state it sets and their class bit, whether the gallery became suspect, flight, bundle and detail. See 12 R485. Log 91 (DEDUCED). -/
structure FRec where
  cause : BitVec 16
  src : Option Nat := none
  ph : Byte := 0xFF
  g : Byte := 0xFF
  slice : Option Nat := none
  errs : List Nat := []
  cls : Nat := 0
  susp : Bool := false
  flight : BitVec 16 := 0xFFFF
  baddr : Word := 0xFFFFFFFF
  detail : Word64 := 0

/-- Crossing sources: halls, then memory controllers, then arcades. -/
def srcHall (ph : Nat) : Option Nat := some ph
def srcMc (k : Nat) : Option Nat := some (64 + k)
def srcArc (a : Nat) : Option Nat := some (128 + a)

/-- The ordinal of the most recent landing of a slice to start, 0 before the first. -/
def State.lastOrd (s : State) (k : Nat) : Word := if (s.sl k).started then (s.sl k).land.ord else 0

/-- The 64 bytes of a record (12 Table 12.1), byte 0 lowest. -/
def State.recordBits (s : State) (r : FRec) (overwrote : Bool) : BitVec 512 :=
  let fl : Byte := (if r.errs.isEmpty then 0 else 1) ||| (if r.susp then 2 else 0) ||| (if overwrote then 4 else 0)
  let st : Word64 := match r.slice with | some k => s.sliceTread k | none => s.clk.tread
  let od : Word := match r.slice with | some k => s.lastOrd k | none => 0
  let sb : Byte := match r.slice with | some k => BitVec.ofNat 8 k | none => 0xFF
  (0#128) ++ s.clk.tread ++ r.detail ++ s.flt.seq ++ r.baddr ++ (0#16) ++ r.flight ++ od ++ st ++ fl ++ sb ++ r.g
    ++ r.ph ++ s.cfg.chip ++ r.cause

/-- The error state of slice `k` with class bit `c` set (12 R488). -/
def State.setErr (s : State) (k c : Nat) : State :=
  if (s.sl k).admitted then
    s.updSl k (fun x => { x with err := { x.err with cls := x.err.cls ||| BitVec.ofNat 8 (2 ^ c) } })
  else s

/-- What a written record leaves in the error state of slice `k`: the counts and the first record (12 Tables 12.3,
12.7; R498). `sets`: the record set the error state. -/
def SliceErr.note (e : SliceErr) (r : FRec) (bits : BitVec 512) (sets : Bool) : SliceErr :=
  { e with
    count := if sets then satInc e.count else e.count
    records := satInc e.records
    first := match e.first with | some f => some f | none => some (r.cause, r.ph, r.g)
    firstRec := match e.firstRec with | some f => some f | none => if sets then some bits else none }

/-- The HBM offset of the ring entry of sequence number `q` (12 R486). -/
def State.ringAddr (s : State) (q : Nat) : Nat :=
  s.flt.ringBase.toNat * 2 ^ 21 + q % 2 ^ s.flt.ringLog.toNat * 64

/-- A record written: its sequence number taken, its copy in the ring, and its traces in the error states. -/
def State.writeRecord (s : State) (r : FRec) : State :=
  let wrapped := decide (2 ^ s.flt.ringLog.toNat ≤ s.flt.ringN)
  let bits := s.recordBits r wrapped
  let q := s.flt.seq.toNat
  let s1 := if s.mainOn then s.writeBytes (s.ringAddr q) (bvBytes 64 bits)
    else { s with flt := { s.flt with waiting := s.flt.waiting ++ [(q, bits)] } }
  let s2 := { s1 with flt := { s1.flt with seq := s1.flt.seq + 1, records := satInc s1.flt.records, ringN := s1.flt.ringN + 1, last := bits } }
  let touched := match r.slice with
    | some k => if r.errs.contains k then r.errs else k :: r.errs
    | none => r.errs
  s2.each touched (fun s k =>
    if (s.sl k).admitted then
      s.updSl k (fun x => { x with err := x.err.note r bits (r.errs.contains k) })
    else s)

/-- The fault-event queue of a source at the present tread: the steward takes the queued events of a tread before the
next (log entry 7, DESIGN CHOICE). -/
def State.crossing (s : State) (src : Nat) : State × Bool :=
  let f := if s.flt.xingAt = s.now then s.flt else { s.flt with xingAt := s.now, xing := [] }
  let n := SMap.get 0 f.xing src
  if 32 ≤ n then
    ({ s with flt := { f with lost := satInc f.lost, ovrFlt := true } }, false)
  else ({ s with flt := { f with xing := SMap.set 0 f.xing src (n + 1) } }, true)

/-- A fault raised: the class bits always reach FLT_ERR; the record is written unless its crossing queue is full
(13 R537). -/
def State.raise (s : State) (r : FRec) : State :=
  let s1 := s.each r.errs (fun s k => s.setErr k r.cls)
  match r.src with
  | none => s1.writeRecord r
  | some k =>
    let (s2, ok) := s1.crossing k
    if ok then s2.writeRecord r else s2

/-- A schedule fault (10 R436): class bit 1 of the slice of the running step. -/
def FRec.schedule (cause : BitVec 16) (src : Option Nat) (slice : Option Nat) (detail : Word64) : FRec :=
  { cause, src, slice, errs := slice.toList, cls := 1, detail }

/-- A refused set-up write (10 Table 10.13, 0x0117): offset of the register and the value. -/
def State.refuseWrite (s : State) (off value : Word) : State :=
  s.raise { cause := 0x0117, detail := value ++ off }

/-- An error state set without a record of its own, for a hall that is not running (08 R364, 12 R488). -/
def State.notRunning (s : State) (k : Nat) : State := s.setErr k 5

/-! ### Completions, notices and vectors (11 R440, R453 to R458) -/

/-- An MSI-X entry before anything is written to it: masked (log entry 9, PRESUMED). -/
def msixReset : BitVec 128 := 1#128 <<< 96

/-- Vector `q` sent, or held pending while its entry is masked. -/
def State.vector (s : State) (q : Nat) : State :=
  if (SMap.get msixReset s.foyer.msix q).getLsbD 96 then
    { s with foyer := { s.foyer with pba := s.foyer.pba ||| BitVec.ofNat 16 (2 ^ q) } }
  else { s with foyer := { s.foyer with irqs := SMap.upd 0 s.foyer.irqs q (· + 1) } }

/-- Completion entries of a queue that are free (11 R456). -/
def Queue.free (q : Queue) : Nat := 2 ^ q.cqLog.toNat - (q.cqW - q.cqHead).toNat

/-- The content of a completion entry that its own descriptor or notice gives (11 Table 11.7). -/
structure Entry where
  record : Option (BitVec 512) := none
  tag : Word := 0
  status : BitVec 16 := 0
  opcode : Byte
  notice : Bool := false
  crc : Option Word64 := none
  detail : Word64 := 0
  chan : Byte := 0xFF
  kind : Byte := 0
  ord : Word := 0

/-- A record as a tenant queue delivers it: bytes 8 to 15 and 40 to 47 are 0 (12 R484). -/
def tenantRecord (r : BitVec 512) : BitVec 512 :=
  r &&& ~~~((0xFFFFFFFFFFFFFFFF#512 <<< 64) ||| (0xFFFFFFFFFFFFFFFF#512 <<< 320))

/-- The 128 bytes of a completion entry on queue `n` (11 Table 11.7). See 11 R455. -/
def State.entryBytes (s : State) (n : Nat) (e : Entry) : List Byte :=
  let q := s.queue n
  let rec_ : BitVec 512 := match e.record with
    | some r => if n = 0 then r else tenantRecord r
    | none => 0
  let fl : Nat := (if e.record.isSome then 1 else 0) + (if e.notice then 2 else 0) + (if e.crc.isSome then 4 else 0)
  let phase : Nat := if (q.cqW.toNat / 2 ^ q.cqLog.toNat) % 2 = 0 then 1 else 0
  bvBytes 64 rec_ ++ bvBytes 4 e.tag ++ bvBytes 2 e.status ++ [e.opcode] ++ leBytes 1 fl
    ++ bvBytes 8 (e.crc.getD 0) ++ bvBytes 8 e.detail ++ [e.chan, BitVec.ofNat 8 n, e.kind, 0] ++ bvBytes 4 e.ord
    ++ (if n = 0 then bvBytes 8 s.clk.tread else zeros 8) ++ zeros 16 ++ bvBytes 2 q.sqHead ++ zeros 2
    ++ leBytes 4 phase

/-- An entry written to the completion ring of queue `n`; nothing on a queue in error (11 R447) or one that is idle. A notice on the operator
queue sets ATR_ALERT.notice (14 Table 14.13). -/
def State.complete (s : State) (n : Nat) (e : Entry) (irq : Bool) : State :=
  let q := s.queue n
  if q.err || q.idle then s
  else
    let a := q.cqb.toNat + q.cqW.toNat % 2 ^ q.cqLog.toNat * 128
    let s1 := s.hostWrite a (s.entryBytes n e)
    let s2 := s1.updQueue n (fun q => { q with cqW := q.cqW + 1 })
    let s3 := if e.notice && n = 0 then { s2 with sec := { s2.sec with alert := s2.sec.alert ||| 2 } } else s2
    if irq then s3.vector n else s3

/-- The entry of a notice. -/
def Notice.entry (s : State) (x : Notice) : Entry :=
  { record := x.record, opcode := 0xFF, notice := true, detail := x.detail, kind := x.kind
    ord := if x.slice = 0xFF then 0 else s.lastOrd x.slice.toNat }

/-- A notice written on queue `n`, or kept until an entry is free (11 R458). A queue that is not enabled has no ring
to write to. -/
def State.noticeOn (s : State) (n : Nat) (x : Notice) : State :=
  let q := s.queue n
  if !q.en || q.err then s
  else if q.free = 0 || !q.notices.isEmpty then
    s.updQueue n (fun q => { q with notices := q.notices ++ [x], late := true })
  else s.complete n (x.entry s) true

/-- A notice for the operator queue and every tenant queue bound to an affected slice (11 R457). -/
def State.notice (s : State) (kind : Byte) (detail : Word64) (slices : List Nat) (record : Option (BitVec 512)) :
    State :=
  let sb : Byte := match slices with | [k] => BitVec.ofNat 8 k | _ => 0xFF
  let x : Notice := { kind, detail, slice := sb, record }
  let tenants := (List.range 15).map (· + 1) |>.filter (fun n =>
    (s.queue n).en && slices.contains (s.queue n).slice.toNat)
  (0 :: tenants).foldl (fun s n => s.noticeOn n x) s

/-- A record raised and carried by a notice. -/
def State.raiseNotice (s : State) (r : FRec) (kind : Byte) (detail : Word64) (slices : List Nat) : State :=
  let q := s.flt.seq
  let s1 := s.raise r
  s1.notice kind detail slices (if s1.flt.seq = q then none else some s1.flt.last)

/-- The descriptor of header `h` completes (11 R453). -/
def State.finish (s : State) (h : DescHdr) (op : Byte) (status : BitVec 16) (detail : Word64) (ord : Word) : State :=
  (s.complete h.queue.val { tag := h.tag, status, opcode := op, detail, ord } (h.flags.getLsbD 0)).updQueue h.queue.val
    (fun q => { q with doing := q.doing - 1 })

/-- The landing ordinal in the completion of a transfer (11 Table 11.7): that of its token, else that of its gate. -/
def xferOrd (d : DmaDesc) : Word := if d.tokEn then d.tokOrd else if d.gateSlice ≠ 0xFF then d.gateOrd else 0

/-- A DMA or storage descriptor completes. -/
def State.finishXfer (s : State) (h : DescHdr) (op : Byte) (d : DmaDesc) (status : BitVec 16) (detail : Word64)
    (crc : Option Word64) : State :=
  (s.complete h.queue.val { tag := h.tag, status, opcode := op, crc, detail, chan := d.chan, ord := xferOrd d }
    (h.flags.getLsbD 0)).updQueue h.queue.val (fun q => { q with doing := q.doing - 1 })

/-- The descriptor completes with a record in its entry. Log 86 (DEDUCED). -/
def State.finishRec (s : State) (h : DescHdr) (op : Byte) (status : BitVec 16) (detail : Word64) (r : FRec) (ord : Word := 0)
    (chan : Byte := 0xFF) : State :=
  let q := s.flt.seq
  let s1 := s.raise r
  let rec_ := if s1.flt.seq = q then none else some s1.flt.last
  (s1.complete h.queue.val { tag := h.tag, status, opcode := op, detail, record := rec_, ord, chan }
    (h.flags.getLsbD 0)).updQueue h.queue.val (fun q => { q with doing := q.doing - 1 })

/-- A descriptor refused: completion status 0x0001 with a record of cause 0x0300 (11 R450, 12 Table 12.2). -/
def State.refuse (s : State) (h : DescHdr) (op : Byte) (ord : Word := 0) (chan : Byte := 0xFF) : State :=
  let sl := if h.queue.val = 0 then none else some (s.queue h.queue.val).slice.toNat
  s.finishRec h op 0x0001 0
    { cause := 0x0300, slice := sl, detail := BitVec.ofNat 64 (op.toNat + 256 * h.queue.val) } ord chan

/-! ### Healthy halls (03 R88) -/

/-- Healthy halls: neither absent nor withdrawn. -/
def State.healthyHalls (s : State) : Nat :=
  ((List.range 64).filter (fun ph => (s.hall ph).st != .absent && (s.hall ph).st != .withdrawn)).length

/-- Halls in a state. -/
def State.hallsIn (s : State) (st : HallSt) : Nat := ((List.range 64).filter (fun ph => (s.hall ph).st = st)).length

/-- ATR_HEALTH brought up to date (15 Table 15.5). -/
def State.countHealth (s : State) : State :=
  { s with sec := { s.sec with
      halls := BitVec.ofNat 7 s.healthyHalls, absent := BitVec.ofNat 7 (s.hallsIn .absent)
      withdrawn := BitVec.ofNat 7 (s.hallsIn .withdrawn)
      fenced := BitVec.ofNat 11 (s.gals.filter (fun e => e.2.cond = .fenced)).length } }

/-- ATR_HEALTH brought up to date; a change of the healthy halls gives notice 0x08 (03 R88, 11 Table 11.9). Before boot step 9
ATR_HEALTH reads 0 and there is nobody to tell. -/
def State.reportHealth (s : State) (rec_ : Option (BitVec 512)) : State :=
  if !s.sec.healthSet then s
  else
    let s1 := s.countHealth
    if s1.sec.halls = s.sec.halls then s1 else s1.notice 0x08 (s1.sec.halls.zeroExtend 64) s1.admitted rec_

/-! ### Galleries under error (03 R92, R93, R120; 12 R487, R495) -/

/-- Who carries out an operation: hall, gallery, running flight and bundle. -/
structure Who where
  ph : Nat
  g : Nat
  flight : BitVec 16 := 0xFFFF
  baddr : Word := 0xFFFFFFFF

/-- A record of a gallery's own: its slice is the hall's. -/
def State.galRec (s : State) (w : Who) (cause : BitVec 16) (cls : Nat) (susp : Bool) (detail : Word64) : FRec :=
  let sl := (s.hall w.ph).mapped
  { cause, src := srcHall w.ph, ph := BitVec.ofNat 8 w.ph, g := BitVec.ofNat 8 w.g, slice := sl, errs := sl.toList
    cls, susp, flight := w.flight, baddr := w.baddr, detail }

/-- Every head of a hall dropped (03 R103). -/
def Hall.dropHeads (h : Hall) : Hall := { h with heads := [] }

/-- A test walk started on a gallery: its hall enters testing and drops its heads; the patterns of the walk overwrite the
store (12 R495, 03 R103). -/
def State.startWalk (s : State) (gi : Nat) : State :=
  let s0 := s.undefine (storeAddr gi 0) (storeAddr gi storeBytes)
  let s1 := s0.updGal gi (fun g => { g with walk := some s.now })
  s1.updHall (gi / 16) (fun h => ({ h with st := .testing }).dropHeads)

/-- A gallery becomes suspect (03 R120). A gallery of an idle hall that is mapped to no slice is walked at once
(12 R495). -/
def State.markSuspect (s : State) (gi : Nat) : State :=
  let s1 := s.updGal gi (fun g => if g.cond = .fenced then g else { g with cond := .suspect })
  let h := s.hall (gi / 16)
  if h.mapped.isNone && (h.st = .idle || h.st = .testing) && (s.gal gi).walk.isNone then s1.startWalk gi else s1

/-- `n` corrected errors of kind `kind` (0 store, 1 instruction store, 2 accumulators) counted: the counter of the
gallery and the storm window of 12 R487. -/
def State.countCe (s : State) (gi kind n : Nat) : State :=
  if n = 0 then s
  else
    s.updGal gi (fun g =>
      let win := s.now / 2 ^ 20
      let g1 := if g.stormWin = win then g else { g with stormWin := win, stormCe := [], stormDone := false }
      { g1 with ce := satAdd g1.ce n, stormCe := SMap.upd 0 g1.stormCe kind (· + n) })

/-- Check errors that the environment reports as having arisen (03 R92, R93; 06 R236, R267). -/
def State.arise (s : State) (ups : List Upset) : State := { s with upsets := s.upsets ++ ups }

/-- Whether a check error lies in line `line` of the store of gallery `gi`. -/
def inStoreLine (gi line : Nat) : UpSite → Bool
  | .store g l _ => g = gi && l = line
  | _ => false

/-- A read of a store line checks its words: corrected errors are counted and removed; an uncorrectable one poisons
the line, counts, marks the gallery suspect and writes a record (03 R92). The line goes on holding the bytes stored before the error:
the spec does not say which data bytes it holds. Log 103 (DESIGN CHOICE). -/
def State.checkStore (s : State) (w : Who) (line : Nat) : State :=
  let gi := galIdx w.ph w.g
  let hit := s.upsets.filter (fun u => inStoreLine gi line u.site)
  if hit.isEmpty then s
  else
    let s1 := { s with upsets := s.upsets.filter (fun u => !inStoreLine gi line u.site) }
    let s2 := s1.countCe gi 0 ((hit.filter (fun u => u.ce)).length)
    if hit.any (fun u => !u.ce) then
      let s3 := s2.updGal gi (fun g =>
        { g with ue := satInc g.ue, poisoned := SMap.set false g.poisoned line true })
      (s3.markSuspect gi).raise (s3.galRec w 0x0200 0 true (BitVec.ofNat 64 (line * 512)))
    else s2

/-- Whether a store line is poisoned. -/
def State.storePoison (s : State) (gi line : Nat) : Bool := SMap.get false (s.gal gi).poisoned line

/-- Check errors of a line vanish when the line is written with fresh check bits. -/
def State.freshLine (s : State) (gi line : Nat) : State :=
  if s.upsets.any (fun u => inStoreLine gi line u.site) then
    { s with upsets := s.upsets.filter (fun u => !inStoreLine gi line u.site) }
  else s

/-- Bytes written to the store of gallery `gi` from local offset `off`, within one line. A write of a whole line with
unpoisoned data clears the line's poison; any other write ORs its own in (05 R214, 04 R175). -/
def State.storeWrite (s : State) (gi off : Nat) (bs : List Byte) (poison : Bool) : State :=
  let line := off / 512
  let whole := decide (bs.length = 512)
  let s1 := if whole then s.freshLine gi line else s
  let p := if whole then poison else poison || s.storePoison gi line
  (s1.writeBytes (storeAddr gi off) bs).updGal gi (fun g => { g with poisoned := SMap.set false g.poisoned line p })

end Sys2Proof.Machine
end

