-- ==== Sys2Proof/Machine/Operands.lean ====
section
/-! DEFINITION. Operand forms of the gallery operations: which field values an operation may carry (05 R183, Tables
05.5 to 05.11), the registers it reads and writes, its pace-table latency (Table 05.13), effective addresses and
store accesses (R198, R199), predicates (R192) and address increments (R200).
-/
namespace Sys2Proof.Machine

/-! ### Field values (05 R183, R205, R210, R212, R222) -/

/-- The compares: they write a P register. -/
def vopIsCmp : VOp → Bool
  | .fcmpeq | .fcmplt | .fcmple | .icmpeq | .icmplt | .icmpltu => true
  | _ => false

/-- Function-unit operations. -/
def vopIsFunc : VOp → Bool
  | .rcp | .div | .sqrt | .rsqrt | .exp2 | .log2 => true
  | _ => false

/-- Whether `va` names a V register that the operation reads. -/
def vopReadsVa : VOp → Bool
  | .splat | .iota => false
  | _ => true

/-- Whether `vb` names a V register that the operation reads. -/
def vopReadsVb : VOp → Bool
  | .fadd | .fsub | .fmul | .fma | .fmin | .fmax | .fcmpeq | .fcmplt | .fcmple | .iadd | .isub | .imul | .and | .or
  | .xor | .shl | .shr | .sar | .icmpeq | .icmplt | .icmpltu | .sel | .div => true
  | _ => false

/-- Whether the operation takes rnd and sat (05 R210). -/
def vopRounds : VOp → Bool
  | .fadd | .fsub | .fmul | .fma | .vredadd => true
  | _ => false

/-- The fields of an arithmetic-form operation hold no reserved value; unused fields are 0 (Table 05.7, R210). -/
def vecOk (o : VOp) (f : VecF) : Bool :=
  (if vopRounds o then f.rnd.toNat ≤ 4 else f.rnd = 0 && !f.sat)
    && (vopReadsVa o || (if o = .splat then f.va.toNat < 16 else f.va = 0))
    && (vopReadsVb o || o = .rot || f.vb = 0)
    && (o = .fma || f.vc = 0)
    && (!vopIsCmp o || f.vd.toNat < 8)

/-- The largest pos of a narrow format (05 R212). -/
def posMax (f : Fmt) : Nat :=
  match f.width with
  | 16 => 1
  | 8 => 3
  | 6 => 4
  | _ => 7

/-- The fields of a conversion hold no reserved value (Tables 05.6, 05.7, R210, R212). -/
def cvtOk (o : CvOp) (f : CvtF) : Bool :=
  match o with
  | .cvti => f.fmt = 0xA#4 && f.pos = 0 && f.rnd.toNat ≤ 5
  | .cvtf => f.fmt = 0#4 && f.pos = 0 && f.rnd.toNat ≤ 5
  | .cvtn =>
    match Fmt.ofCode f.fmt with
    | some m => m.matrix && f.pos.toNat ≤ posMax m && f.rnd.toNat ≤ 5
    | none => false
  | .cvtw =>
    match Fmt.ofCode f.fmt with
    | some m => m.matrix && f.pos.toNat ≤ posMax m && f.rnd = 0 && !f.sat && f.xk = 0 && !f.adv
    | none => false

/-- Tile rows K of a matrix format (05, before R204). See 03 R95. -/
def tileRows (m : Fmt) : Nat := if m.width = 4 then 128 else 64

/-- Blocks per row. -/
def blocks (m : Fmt) : Nat := tileRows m / 32

/-- Bytes of one row. -/
def rowBytes (m : Fmt) : Nat := tileRows m * m.width / 8

/-- Whether a format has block scales (04 Table 04.4): BF16 and FP16 have none, so scale bytes named for them act as 127 (04 R139). -/
def Fmt.hasScales (m : Fmt) : Bool := m.width ≤ 8

/-- Bytes of one tile (03 Table 03.4). -/
def tileBytes (m : Fmt) : Nat := 64 * rowBytes m

/-- The fields of an MMA hold no reserved value (05 Table 05.5, R205). -/
def mmaOk (f : MmaF) : Bool :=
  match Fmt.ofCode f.fmt with
  | none => false
  | some m =>
    let n := f.n1.toNat + 1
    m.matrix &&
      (if f.rv then f.xr = 0 && f.xs = 0 && n ≤ 256 / rowBytes m && !(f.scaled && f.vr = 63)
       else f.vr = 0 && !(f.scaled && 512 < n * blocks m))

/-- A format code names a matrix operand. -/
def matrixFmt (c : BitVec 4) : Bool := match Fmt.ofCode c with | some m => m.matrix | none => false

/-- Whether an operation carries only values that its encoding table gives a meaning (05 R183). -/
def gopOk : GOp → Bool
  | .mldt f => matrixFmt f.fmt
  | .mma f => mmaOk f
  | .mrd f => f.dfmt.toNat < 3 && f.rnd.toNat ≤ 5
  | .vec o f => vecOk o f
  | .cvt o f => cvtOk o f
  | .ldl f => !f.vd.getLsbD 0
  | .ldx f => f.vd.toNat < 16
  | .stl f => !f.vs.getLsbD 0
  | .stx f => f.p = 0 && !f.pn
  | .hld f => f.win.toNat ≤ 8
  | .hst f => f.win.toNat ≤ 8
  | .psetn f => f.n.toNat ≤ 64
  | .pnot f => f.pb = 0
  | .token f => if f.fab then f.port.toNat < 30 else f.port = 0
  | .bval f => if f.fab then f.port.toNat < 30 else f.port = 0
  | .land f => 63 ≤ f.w4.toNat && f.d4.toNat ≤ f.w4.toNat + 1 && (!f.branch || f.last)
  | .mclr _ | .mfill _ | .mspill _ | .ldh _ | .sth _ | .csend _ | .awr _ | .ard _ | .swr _ | .srd _ | .bayw _ | .bayr _
  | .cfetch _ | .fpa _ | .loop _ | .xset _ | .xaddi _ | .x3 _ _ | .xshli _ | .xshri _ | .xmovv _ | .xlc _ | .pand _
  | .por _ | .fpi _ | .fpout _ => true

/-! ### Register files (03 Table 03.5, 05 R184) -/

def Gallery.vr (g : Gallery) (r : Nat) : VCell := SMap.get {} g.v r
/-- X0 always reads 0 and is never poisoned. -/
def Gallery.xr (g : Gallery) (r : Nat) : XCell := if r = 0 then {} else SMap.get {} g.x r
/-- P0 always reads all ones and is never poisoned. -/
def Gallery.pr (g : Gallery) (r : Nat) : PCell := if r = 0 then { bits := BitVec.allOnes 64 } else SMap.get {} g.p r
def Gallery.fr (g : Gallery) (r : Nat) : FCell := SMap.get {} g.f r
def Gallery.bank (g : Gallery) (r : Nat) : Bank := SMap.get {} g.banks r

/-- Lane `i` of a V register. -/
def VCell.lane (c : VCell) (i : Nat) : Word := c.bits.extractLsb' (32 * i) 32

/-- Writes to X0 are discarded. -/
def Gallery.setX (g : Gallery) (r : Nat) (c : XCell) : Gallery :=
  if r = 0 then g else { g with x := SMap.set {} g.x r c }
/-- Writes to P0 are discarded. -/
def Gallery.setP (g : Gallery) (r : Nat) (c : PCell) : Gallery :=
  if r = 0 then g else { g with p := SMap.set {} g.p r c }
def Gallery.setV (g : Gallery) (r : Nat) (c : VCell) : Gallery := { g with v := SMap.set {} g.v r c }
def Gallery.setF (g : Gallery) (r : Nat) (c : FCell) : Gallery := { g with f := SMap.set {} g.f r c }
def Gallery.setBank (g : Gallery) (r : Nat) (b : Bank) : Gallery := { g with banks := SMap.set {} g.banks r b }

/-- 64 words as the bits of a V register, lane 0 lowest. -/
def packLanes : List Word → Nat
  | [] => 0
  | w :: ws => w.toNat + 2 ^ 32 * packLanes ws

/-- A V register from its lanes. -/
def lanesV (l : List Word) : VReg := BitVec.ofNat 2048 (packLanes l)

/-- Bits from a list, first lowest. -/
def packBits : List Bool → Nat
  | [] => 0
  | b :: bs => (if b then 1 else 0) + 2 * packBits bs

/-- A 64-bit mask from a predicate on lanes. -/
def mask64 (f : Nat → Bool) : BitVec 64 := BitVec.ofNat 64 (packBits ((List.range 64).map f))

/-- The lanes that a predicate field enables (05 R192). See 05 R193. -/
def enabled (g : Gallery) (p : BitVec 3) (pn : Bool) : BitVec 64 :=
  if pn then ~~~ (g.pr p.toNat).bits else (g.pr p.toNat).bits

/-! ### Registers read and written -/

/-- A register, bank or tile of a gallery. -/
inductive Reg where
  | v (r : Nat) | x (r : Nat) | p (r : Nat) | f (r : Nat) | bank (r : Nat) | shadow | active
  deriving DecidableEq, Repr

/-- The key of a register in `Gallery.doneAt`. -/
def Reg.code : Reg → Nat
  | .v r => r
  | .x r => 64 + r
  | .p r => 80 + r
  | .f r => 88 + r
  | .bank r => 92 + r
  | .shadow => 96
  | .active => 97

/-- What one result of an operation in flight writes. -/
def RegWrite.reg : RegWrite → List Reg
  | .v r _ => [.v r.toNat]
  | .x r _ => [.x r.toNat]
  | .p r _ => [.p r.toNat]
  | .f r _ => [.f r.toNat]
  | .bank r _ => [.bank r.toNat]
  | .shadow _ => [.shadow]
  | .corridor _ | .present _ => []

/-- `[r]` when `b`. -/
def regIf (b : Bool) (r : Reg) : List Reg := if b then [r] else []

/-- Registers an operation reads or writes: an earlier writer of any of them must have completed (02 Table 02.1). -/
def gopRegs : GOp → List Reg
  | .mldt f => [.x f.xt.toNat, .x f.xs.toNat, .shadow]
  | .mma f => [.bank f.bank.toNat] ++ (if f.rv then [.v f.vr.toNat] ++ regIf f.scaled (.v (f.vr.toNat + 1))
      else [.x f.xr.toNat, .x f.xs.toNat]) ++ (if f.swap then [.shadow, .active] else [.active])
  | .mclr f => [.bank f.bank.toNat]
  | .mfill f => [.bank f.bank.toNat, .x f.xa.toNat]
  | .mspill f => [.bank f.bank.toNat, .x f.xa.toNat]
  | .mrd f => [.bank f.bank.toNat, .v f.vd.toNat]
      ++ (if f.rnd = 5 || f.adv then [.x (2 * f.xk.toNat), .x (2 * f.xk.toNat + 1)] else [])
  | .vec o f => [.p f.p.toNat] ++ (if vopIsCmp o then [.p f.vd.toNat] else [.v f.vd.toNat])
      ++ regIf (vopReadsVa o) (.v f.va.toNat) ++ regIf (vopReadsVb o) (.v f.vb.toNat)
      ++ regIf (o = .fma) (.v f.vc.toNat) ++ regIf (o = .splat) (.x f.va.toNat)
  | .cvt _ f => [.p f.p.toNat, .v f.vd.toNat, .v f.va.toNat]
      ++ (if f.rnd = 5 || f.adv then [.x (2 * f.xk.toNat), .x (2 * f.xk.toNat + 1)] else [])
  | .ldh f => [.v f.vd.toNat, .x f.xa.toNat]
  | .ldl f => [.v f.vd.toNat, .v (f.vd.toNat + 1), .x f.xa.toNat]
  | .ldx f => [.x f.vd.toNat, .x f.xa.toNat]
  | .sth f => [.v f.vs.toNat, .x f.xa.toNat, .p f.p.toNat]
  | .stl f => [.v f.vs.toNat, .v (f.vs.toNat + 1), .x f.xa.toNat, .p f.p.toNat]
  | .stx f => [.x (f.vs.toNat % 16), .x f.xa.toNat]
  | .csend f => [.x f.xa.toNat, .x f.xm.toNat]
  | .awr f | .ard f | .swr f | .srd f => [.x f.xa.toNat]
  | .bayw f | .bayr f => [.x f.xa.toNat, .x f.xb.toNat]
  | .hld f | .hst f => [.x f.xs.toNat, .x f.xh.toNat]
  | .cfetch f => [.x f.xh.toNat]
  | .fpa f => [.f f.f.toNat, .x f.xa.toNat]
  | .loop _ | .token _ | .land _ => []
  | .xset f => [.x f.xd.toNat]
  | .xaddi f => [.x f.xd.toNat, .x f.xa.toNat]
  | .x3 _ f => [.x f.xd.toNat, .x f.xa.toNat, .x f.xb.toNat]
  | .xshli f | .xshri f => [.x f.xd.toNat, .x f.xa.toNat]
  | .xmovv f => [.x f.xd.toNat, .v f.va.toNat]
  | .xlc f => [.x f.xd.toNat]
  | .psetn f => [.p f.pd.toNat]
  | .pand f | .por f => [.p f.pd.toNat, .p f.pa.toNat, .p f.pb.toNat]
  | .pnot f => [.p f.pd.toNat, .p f.pa.toNat]
  | .bval f => [.x f.xa.toNat]
  | .fpi f => [.f f.toNat]
  | .fpout f => [.f f.f.toNat, .x f.xa.toNat]

/-- Whether an operation in flight still writes a register of the list. -/
def InFlight.blocks (o : InFlight) (rs : List Reg) : Bool := o.writes.any (fun w => w.reg.any (fun r => rs.contains r))

/-! ### Latencies (05 R227, R228, Table 05.13) -/

/-- The A0 columns apply: an A0 part, an A0 pace identifier, or the as-A0 mode. -/
def State.a0Columns (s : State) (ph : Nat) : Bool :=
  s.cfg.stepping = .a0 || (s.hall ph).reg.asA0 || (s.hall ph).reg.pid.toNat / 256 = 0xA0

/-- The latency of a row at a pace point: h, 4h/3 rounded up, 2h. -/
def atPace (pace : BitVec 2) (h : Nat) : Nat :=
  match pace.toNat with
  | 0 => h
  | 1 => (4 * h + 2) / 3
  | _ => 2 * h

/-- h of an MLDT row. -/
def mldtH (a0 tr : Bool) (w : Nat) : Nat :=
  match w, tr with
  | 16, false => 10
  | 16, true => if a0 then 34 else 14
  | 6, false => 5
  | 6, true => if a0 then 15 else 7
  | _, false => 6
  | _, true => if a0 then 18 else 8

/-- The element width that a format code names. -/
def codeWidth (c : BitVec 4) : Nat := match Fmt.ofCode c with | some m => m.width | none => 8

/-- h of an operation: its latency at pace high. -/
def gopH (a0 : Bool) : GOp → Nat
  | .mldt f => mldtH a0 f.tr (codeWidth f.fmt) + (if f.scaled then 1 else 0)
  | .mma f =>
    let n := f.n1.toNat + 1
    (if codeWidth f.fmt = 16 then 2 * n + 8 else n + 8) + (if f.scaled && !f.rv then 1 else 0)
  | .mclr _ => 2
  | .mfill _ => 4
  | .mspill _ => 5
  | .mrd _ => 6
  | .vec o _ =>
    match o with
    | .fadd | .fsub | .fmul | .fma | .fmin | .fmax | .fcmpeq | .fcmplt | .fcmple | .fneg | .fabs => 4
    | .iadd | .isub | .and | .or | .xor | .shl | .shr | .sar | .icmpeq | .icmplt | .icmpltu | .sel | .mov | .splat
    | .iota => 2
    | .imul | .rot => 3
    | .vredadd | .vredmax => 12
    | .rcp => 8
    | .div => if a0 then 20 else 12
    | .sqrt => 14
    | .rsqrt => if a0 then 16 else 9
    | .exp2 => 10
    | .log2 => 12
  | .cvt _ _ => 4
  | .ldh _ | .ldl _ | .ldx _ => 6
  | .sth _ | .stl _ | .stx _ | .fpout _ => 4
  | .csend _ => 12
  | .awr _ => 4
  | .ard _ | .srd _ => 3
  | .swr _ => 24
  | .bayw _ | .bayr _ => 32
  | .hld f => 201 + f.n1.toNat
  | .hst f => 41 + f.n1.toNat
  | .cfetch f => 201 + f.n1.toNat
  | .fpa f => f.n1.toNat + 5
  | .x3 .mul _ | .xmovv _ => 3
  | .token f => if f.fab then 32 else 64
  | .bval f => if f.fab then 32 else 64
  | .loop _ | .xset _ | .xaddi _ | .x3 _ _ | .xshli _ | .xshri _ | .xlc _ | .psetn _ | .pand _ | .por _ | .pnot _
  | .land _ | .fpi _ => 1

/-- HBM rows have the same latency at every pace. -/
def gopEveryPace : GOp → Bool
  | .hld _ | .hst _ | .cfetch _ => true
  | _ => false

/-- The pace-table latency of an operation on a hall. -/
def State.latency (s : State) (ph : Nat) (op : GOp) : Nat :=
  let h := gopH (s.a0Columns ph) op
  if gopEveryPace op then h else atPace (s.hall ph).reg.pace h

/-! ### Store accesses (05 R198 to R200) -/

/-- An address offset by a signed immediate in units of `u`. -/
def effAddr {n : Nat} (x : Word64) (imm : BitVec n) (u : Nat) : Word64 :=
  x + BitVec.ofInt 64 (imm.toInt * u)

/-- The store offset of an effective address: bits [20:0], aligned down (05 R198). -/
def storeOff (a : Word64) (align : Nat) : Nat :=
  let o := a.toNat % 2 ^ 21
  o - o % align

/-- An offset outside the store (05 R198). -/
def offStore (o : Nat) : Bool := storeBytes ≤ o

/-- The lines that `len` bytes from `o` touch, in ascending order, as line numbers modulo 4,096. -/
def linesOf (o len : Nat) : List Nat :=
  if len = 0 then []
  else (List.range ((o % 512 + len - 1) / 512 + 1)).map (fun i => (o / 512 + i) % 4096)

/-- A store range fault (05 R199). -/
def State.rangeFault (s : State) (w : Who) (a : Nat) : State :=
  let sl := (s.hall w.ph).mapped
  s.raise { cause := 0x0101, src := srcHall w.ph, ph := BitVec.ofNat 8 w.ph, g := BitVec.ofNat 8 w.g, slice := sl
            errs := sl.toList, cls := 1, flight := w.flight, baddr := w.baddr, detail := BitVec.ofNat 64 a }

/-- A read of `len` bytes of the gallery's store from offset `o`: the lines are checked (03 R92), bytes out of range
read as zeros marked poisoned with one record (05 R199), lines past the end of the store as well where the access begins in range (log 108, DESIGN CHOICE), and the result is poisoned when a line is. `v` is the state at
the start of the tread, whose contents the read returns (03 R91, 05 R191). -/
def State.loadStore (v s : State) (w : Who) (o len : Nat) : State × List Byte × Bool :=
  let gi := galIdx w.ph w.g
  let ls := linesOf o len
  let good := ls.filter (fun l => l < 2560)
  let bad := ls.filter (fun l => 2560 ≤ l)
  let s1 := s.each good (fun s l => s.checkStore w l)
  let s2 := match bad with
    | [] => s1
    | l :: _ => s1.rangeFault w (if offStore o then o else l * 512)
  let poison := !bad.isEmpty || good.any (fun l => v.storePoison gi l || s1.storePoison gi l)
  let bytes := (List.range len).map (fun i =>
    let a := (o + i) % 2 ^ 21
    if offStore a then 0 else v.schedByte (storeAddr gi a))
  (s2, bytes, poison)

/-- The tread before which an operation of hall `ph` whose budget ends at `due` does not complete: in the as-A0 mode the budget's
own end (05 R228). -/
def State.floorOf (s : State) (ph due : Nat) : Nat := if (s.hall ph).reg.asA0 then due else 0

/-- The results of an operation in flight. -/
def State.inFlight (s : State) (gi due : Nat) (ws : List RegWrite) : State :=
  s.updGal gi (fun g => { g with inflight := g.inflight ++ [{ due, writes := ws }] })

/-- The write that advances X[r] by `step` (05 R200), none when `inc` is 0. The register keeps its poison. -/
def xInc (g : Gallery) (inc : Bool) (r : BitVec 4) (step : Nat) : List RegWrite :=
  if inc then [.x r { (g.xr r.toNat) with bits := (g.xr r.toNat).bits + BitVec.ofNat 64 step }] else []

/-- The energy of an operation spread over the treads of its latency into the power windows (13 R524, Table 13.5), in
fJ. -/
def spreadEnergy (spent : SMap Nat) (fj start lat : Nat) : SMap Nat :=
  let first := start / 200
  let last := (start + lat - 1) / 200
  (List.range (last - first + 1)).foldl (fun m i =>
    let w := first + i
    let lo := max start (w * 200)
    let hi := min (start + lat) ((w + 1) * 200)
    SMap.upd 0 m w (· + fj * (hi - lo) / lat)) spent

/-- The weight of an operation of one gallery, in fJ (13 Table 13.5). -/
def gopEnergy (x : Word64) : GOp → Nat
  | .mldt f => 80000 * (tileBytes ((Fmt.ofCode f.fmt).getD .e4m3) / 512 + (if f.scaled then 1 else 0))
  | .mma f =>
    let n := f.n1.toNat + 1
    let m := (Fmt.ofCode f.fmt).getD .e4m3
    let s := x.toNat % 512
    let s := s - s % 64
    n * (if m.width = 16 then 4200000 else 2100000)
      + (if f.rv then 0 else 80000 * ((s + n * rowBytes m + 511) / 512 + (if f.scaled then 1 else 0)))
  | .mfill _ | .mspill _ => 240000
  | .vec _ _ | .cvt _ _ => 150000
  | .ldh _ | .ldl _ | .ldx _ | .sth _ | .stl _ | .stx _ | .fpout _ => 80000
  | .csend _ => 180000
  | .awr _ | .ard _ | .swr _ | .srd _ | .bayw _ | .bayr _ => 180000
  | .fpa f => 80000 * (f.n1.toNat + 1)
  | .mclr _ | .mrd _ | .hld _ | .hst _ | .cfetch _ | .loop _ | .xset _ | .xaddi _ | .x3 _ _ | .xshli _ | .xshri _
  | .xmovv _ | .xlc _ | .psetn _ | .pand _ | .por _ | .pnot _ | .token _ | .bval _ | .land _ | .fpi _ => 0

/-! ### Ports and units (05 R189, R190, Table 05.13) -/

/-- A unit of a gallery: 0 matrix array, 1 port L0, 2 port L1, 3 port SW, 4 port T, 5 function unit, 6 and 7 the vector
slots, 8 fingerprint unit, 9 and 10 the corridor directions of the hall. The list gives each unit with the treads held
at pace high. -/
def gopUnits (x : Word64) (slot : Nat) : GOp → List (Nat × Nat)
  | .mldt f =>
    let n := tileBytes ((Fmt.ofCode f.fmt).getD .e4m3) / 1024
    [(1, n), (2, n + (if f.scaled then 1 else 0))]
  | .mma f =>
    let m := (Fmt.ofCode f.fmt).getD .e4m3
    let n := f.n1.toNat + 1
    let o := x.toNat % 512
    (0, if m.width = 16 then 2 * n else n) ::
      (if f.rv then [] else [(2, (o - o % 64 + n * rowBytes m + 511) / 512 + (if f.scaled then 1 else 0))])
  | .mfill _ => [(1, 2), (2, 1)]
  | .mspill _ => [(3, 3)]
  | .vec o _ => (if vopIsFunc o then [(5, 1)] else []) ++ [(if slot = 3 then 7 else 6, 1)]
  | .cvt _ _ => [(if slot = 3 then 7 else 6, 1)]
  | .ldh f | .ldl f | .ldx f => [(if f.port then 2 else 1, 1)]
  | .sth _ | .stl _ | .stx _ | .fpout _ => [(3, 1)]
  | .csend f => [(4, 1), (if f.dir then 10 else 9, 1)]
  | .awr _ | .ard _ | .swr _ | .srd _ | .bayw _ | .bayr _ => [(4, 1)]
  | .hst f => [(4, f.n1.toNat + 1)]
  | .fpa f => [(4, f.n1.toNat + 1), (8, f.n1.toNat + 1)]
  | .mclr _ | .mrd _ | .hld _ | .cfetch _ | .loop _ | .xset _ | .xaddi _ | .x3 _ _ | .xshli _ | .xshri _ | .xmovv _
  | .xlc _ | .psetn _ | .pand _ | .por _ | .pnot _ | .token _ | .bval _ | .land _ | .fpi _ => []

/-- Thirds of a tread that one use holds at a pace point: 3, 4 or 6, so that a unit takes one, three in four or one in
two operations per tread (05 R189). -/
def paceThirds (pace : BitVec 2) : Nat :=
  match pace.toNat with
  | 0 => 3
  | 1 => 4
  | _ => 6

/-- Whose `busy` map a unit is in: the corridor directions are the hall's, kept with gallery 0. See 03 R90. -/
def unitOwner (ph g u : Nat) : Nat := if 9 ≤ u then galIdx ph 0 else galIdx ph g

/-- The address register that decides how many lines an MMA touches. -/
def mmaAddr (g : Gallery) (op : GOp) : Word64 :=
  match op with
  | .mma f => (g.xr f.xr.toNat).bits
  | _ => 0

/-- The first tread at which a unit whose `busy` entry is `b` is free. -/
def freeFrom (b : Nat) : Nat := b / 3

/-- The first tread at which every unit of an operation is free of earlier uses. -/
def State.unitsAt (s : State) (ph g slot : Nat) (op : GOp) : Nat :=
  (gopUnits (mmaAddr (s.gal (galIdx ph g)) op) slot op).foldl
    (fun t u => max t (freeFrom (SMap.get 0 (s.gal (unitOwner ph g u.1)).busy u.1))) 0

/-- The units of an operation are free of earlier uses at this tread. -/
def State.unitsFree (s : State) (ph g slot : Nat) (op : GOp) : Bool :=
  (gopUnits (mmaAddr (s.gal (galIdx ph g)) op) slot op).all (fun u =>
    freeFrom (SMap.get 0 (s.gal (unitOwner ph g u.1)).busy u.1) ≤ s.now)

/-- The units of an operation held from this tread. -/
def State.holdUnits (s : State) (ph g slot : Nat) (op : GOp) : State :=
  let k := paceThirds (s.hall ph).reg.pace
  s.each (gopUnits (mmaAddr (s.gal (galIdx ph g)) op) slot op) (fun s u =>
    s.updGal (unitOwner ph g u.1) (fun x => { x with busy := SMap.upd 0 x.busy u.1 (fun b => max b (3 * s.now) + k * u.2) }))

/-- The slot in which a lone operation issues: a vector operation takes slot VA, or VB while VA is busy; the units of every other
operation are the same in each. -/
def State.loneSlot (s : State) (ph g : Nat) (op : GOp) : Nat := if s.unitsAt ph g 2 op ≤ s.now then 2 else 3

/-- Port T of a gallery takes one line at the first tread at which it is free; the answer gives that tread (03 R90, R106; 05 Table
05.13). -/
def State.portT (s : State) (gi : Nat) : State × Nat :=
  let b := SMap.get 0 (s.gal gi).busy 4
  (s.updGal gi (fun g => { g with
      busy := SMap.set 0 g.busy 4 (max b (3 * s.now) + paceThirds (s.hall (gi / 16)).reg.pace) }),
    max s.now (freeFrom b))

end Sys2Proof.Machine
end

