-- ==== Sys2Proof/Machine/Flags.lean ====
section
/-! DEFINITION. The sticky arithmetic flags of a gallery (04 R178, R180, Table 04.17) and the counter generator of
stochastic rounding (04 R145 to R148).
-/
namespace Sys2Proof.Machine

/-- Flags set in HAL_GAL_ARITH of gallery `gi`; a flag stays set (04 R180). -/
def State.setFlags (s : State) (gi : Nat) (fl : BitVec 8) : State :=
  if fl = 0 then s else s.updGal gi (fun g => { g with arith := g.arith ||| fl })

/-- The OR of the flags of many results. -/
def orFlags : List (BitVec 8) → BitVec 8
  | [] => 0
  | f :: fs => f ||| orFlags fs

/-- One round of the counter generator (04 R145). -/
def genRound (x : Word64) (n : Nat) : Word64 :=
  let x1 := x + BitVec.ofNat 64 n * 0x5D3E8B21C4F71A69#64
  let x2 := (x1 ^^^ (x1 >>> 31)) * 0x8C6F2E1B94D35A27#64
  let x3 := (x2 ^^^ (x2 >>> 29)) * 0xE7A14D936B05C8F1#64
  x3 ^^^ (x3 >>> 32)

/-- The counter generator: a 32-bit key and a 64-bit counter give 32 random bits (04 R145). -/
def counterGen (k : Word) (c : Word64) : Word :=
  let x := c ^^^ (k.zeroExtend 64 * 0xA3C59AC3F1D27B45#64)
  (genRound (genRound (genRound x 1) 2) 3).extractLsb' 32 32

/-- The random bits of output element `e`: key in X[2 xk], counter base in X[2 xk + 1] (04 R146, R147). -/
def randOf (g : Gallery) (xk : BitVec 3) (e : Nat) : Word :=
  counterGen ((g.xr (2 * xk.toNat)).bits.truncate 32) ((g.xr (2 * xk.toNat + 1)).bits + BitVec.ofNat 64 e)

/-- Whether a rounding in SR takes poison from its key or counter register (04 R175). -/
def randPoison (g : Gallery) (rnd : BitVec 3) (xk : BitVec 3) : Bool :=
  rnd = 5 && ((g.xr (2 * xk.toNat)).poison || (g.xr (2 * xk.toNat + 1)).poison)

/-- The write that advances the counter register by 64 (05 R208, R211), under adv = 1 whatever the rounding: the spec speaks of SR only.
Log 107 (DESIGN CHOICE). -/
def advWrite (g : Gallery) (adv : Bool) (xk : BitVec 3) : List RegWrite :=
  xInc g adv (BitVec.ofNat 4 (2 * xk.toNat + 1)) 64

end Sys2Proof.Machine
end

