-- ==== Sys2Proof/Machine/FuncUnit.lean ====
section
/-! DEFINITION. The function unit (04 R168 to R173): six functions on FP32 lanes, each giving result bits and flags. -/
namespace Sys2Proof.Machine

/-- The canonical FP32 NaN. -/
def qnan32 : Word := 0x7FC00000

/-- An FP32 infinity. -/
def inf32 (neg : Bool) : Word := if neg then 0xFF800000 else 0x7F800000

/-- An FP32 zero. -/
def zero32 (neg : Bool) : Word := if neg then 0x80000000 else 0

/-- A finite value rounded once to FP32 in RNE. -/
def rne32 (neg : Bool) (m : Nat) (e : Int) : Word × BitVec 8 :=
  let (b, fl) := Fmt.fp32.roundFloat .rne false 0 neg m e
  (BitVec.ofNat 32 b, fl)

/-- The quotient (n × 2^e) / d rounded once in RNE: 80 further bits with a sticky bit below them fix the rounding. -/
def quot32 (neg : Bool) (n d : Nat) (e : Int) : Word × BitVec 8 :=
  let q := n * 2 ^ 80 / d
  let r := n * 2 ^ 80 % d
  rne32 neg (2 * q + (if r = 0 then 0 else 1)) (e - 81)

/-- The integer square root, bit by bit from bit `k` − 1 down; `r` holds the bits found. -/
def isqrtFrom (n : Nat) : Nat → Nat → Nat
  | 0, r => r
  | k + 1, r => isqrtFrom n k (if (r + 2 ^ k) * (r + 2 ^ k) ≤ n then r + 2 ^ k else r)

/-- The largest integer whose square is at most `n`, for `n` below 2^128. -/
def isqrt (n : Nat) : Nat := isqrtFrom n 64 0

/-- A magnitude with an even exponent. -/
def evenExp (m : Nat) (e : Int) : Nat × Int := if e % 2 = 0 then (m, e) else (2 * m, e - 1)

/-- RCP (Tables 04.12, 04.13). -/
def fuRcp (x : Word) : Word × BitVec 8 :=
  match fval32 x with
  | .nan sig => (qnan32, flagIf sig flInvalid)
  | .inf n => (zero32 n, 0)
  | .fin n m e => if m = 0 then (inf32 n, flDivzero) else quot32 n 1 m (-e)

/-- DIV: IEEE 754-2019 binary32 division in RNE (R169). -/
def fuDiv (x y : Word) : Word × BitVec 8 :=
  match fval32 x, fval32 y with
  | .nan a, v => (qnan32, flagIf (a || v.isSig) flInvalid)
  | _, .nan b => (qnan32, flagIf b flInvalid)
  | .inf _, .inf _ => (qnan32, flInvalid)
  | .inf a, .fin b _ _ => (inf32 (a != b), 0)
  | .fin a _ _, .inf b => (zero32 (a != b), 0)
  | .fin a m e, .fin b n f =>
    if n = 0 then (if m = 0 then (qnan32, flInvalid) else (inf32 (a != b), flDivzero))
    else quot32 (a != b) m n (e - f)

/-- SQRT (Tables 04.12, 04.13). -/
def fuSqrt (x : Word) : Word × BitVec 8 :=
  match fval32 x with
  | .nan sig => (qnan32, flagIf sig flInvalid)
  | .inf n => if n then (qnan32, flInvalid) else (inf32 false, 0)
  | .fin n m e =>
    if m = 0 then (zero32 n, 0)
    else if n then (qnan32, flInvalid)
    else
      let (m1, e1) := evenExp m e
      let k := m1 * 2 ^ 80
      let r := isqrt k
      rne32 false (2 * r + (if r * r = k then 0 else 1)) (e1 / 2 - 41)

/-- RSQRT: 1/√x rounded once in RNE (Tables 04.12, 04.13). -/
def fuRsqrt (x : Word) : Word × BitVec 8 :=
  match fval32 x with
  | .nan sig => (qnan32, flagIf sig flInvalid)
  | .inf n => if n then (qnan32, flInvalid) else (zero32 false, 0)
  | .fin n m e =>
    if m = 0 then (inf32 n, flDivzero)
    else if n then (qnan32, flInvalid)
    else
      let (m1, e1) := evenExp m e
      let r := isqrt (2 ^ 120 / m1)
      rne32 false (2 * r + (if r * r * m1 = 2 ^ 120 then 0 else 1)) (-(e1 / 2) - 61)

/-- Table TX of 04 Table 04.15, entries 0 to 15. -/
def tableTX0 : List Nat :=
  [1073741824, 1085434106, 1097253708, 1109202018, 1121280436, 1133490379, 1145833280, 1158310587,
   1170923762, 1183674286, 1196563654, 1209593378, 1222764986, 1236080024, 1249540052, 1263146652]

/-- Table TX of 04 Table 04.15, entries 16 to 31. -/
def tableTX1 : List Nat :=
  [1276901417, 1290805962, 1304861917, 1319070932, 1333434672, 1347954824, 1362633090, 1377471191,
   1392470869, 1407633882, 1422962010, 1438457051, 1454120821, 1469955159, 1485961921, 1502142985]

/-- Table TX of 04 Table 04.15, entries 32 to 47. -/
def tableTX2 : List Nat :=
  [1518500250, 1535035634, 1551751076, 1568648537, 1585730000, 1602997467, 1620452965, 1638098541,
   1655936265, 1673968228, 1692196547, 1710623359, 1729250827, 1748081133, 1767116489, 1786359126]

/-- Table TX of 04 Table 04.15, entries 48 to 63. -/
def tableTX3 : List Nat :=
  [1805811301, 1825475297, 1845353420, 1865448001, 1885761398, 1906295993, 1927054196, 1948038440,
   1969251188, 1990694927, 2012372174, 2034285470, 2056437387, 2078830522, 2101467502, 2124350982]

/-- Table TX of 04 Table 04.15. See 04 R172. -/
def tableTX : List Nat := tableTX0 ++ tableTX1 ++ tableTX2 ++ tableTX3

/-- Table TL of 04 Table 04.15, entries 0 to 15. -/
def tableTL0 : List Nat :=
  [12055174, 35887675, 59359063, 82480119, 105261148, 127712004, 149842124, 171660541,
   193175914, 214396548, 235330407, 255985140, 276368092, 296486323, 316346620, 335955515]

/-- Table TL of 04 Table 04.15, entries 16 to 31. -/
def tableTL1 : List Nat :=
  [355319292, 374444004, 393335482, 411999347, 430441017, 448665721, 466678506, 484484242,
   502087636, 519493235, 536705435, 553728485, 570566499, 587223455, 603703206, 620009483]

/-- Table TL of 04 Table 04.15, entries 32 to 47. -/
def tableTL2 : List Nat :=
  [636145900, 652115959, 667923055, 683570481, 699061430, 714399001, 729586201, 744625951,
   759521085, 774274358, 788888448, 803365955, 817709409, 831921271, 846003931, 859959719]

/-- Table TL of 04 Table 04.15, entries 48 to 63. -/
def tableTL3 : List Nat :=
  [873790901, 887499680, 901088206, 914558569, 927912807, 941152905, 954280797, 967298370,
   980207461, 993009864, 1005707329, 1018301561, 1030794226, 1043186948, 1055481314, 1067678873]

/-- Table TL of 04 Table 04.15. See 04 R172. -/
def tableTL : List Nat := tableTL0 ++ tableTL1 ++ tableTL2 ++ tableTL3

/-- Table TC of 04 Table 04.15: 2^37 / (129 + 2j) to the nearest integer. See 04 R172. -/
def tableTC (j : Nat) : Nat := (2 ^ 38 + (129 + 2 * j)) / (2 * (129 + 2 * j))

/-- EXP2 (R169, R170). -/
def fuExp2 (x : Word) : Word × BitVec 8 :=
  match fval32 x with
  | .nan sig => (qnan32, flagIf sig flInvalid)
  | .inf n => (if n then zero32 false else inf32 false, 0)
  | .fin n m e =>
    let v : FVal := .fin n m e
    if 0 ≤ v.cmp (.fin false 128 0) then (inf32 false, flOverflow ||| flInexact)
    else if v.cmp (.fin true 150 0) < 0 then (zero32 false, flUnderflow ||| flInexact)
    else
      let mag : Int := if n then -(m : Int) else m
      let z : Int := if 0 ≤ e + 23 then mag * 2 ^ (e + 23).toNat else mag / 2 ^ (-(e + 23)).toNat
      let i : Int := z / 2 ^ 23
      let u := (z % 2 ^ 23).toNat
      let j := u / 2 ^ 17
      let d := u % 2 ^ 17
      let p := (d * 744261118 * 2 ^ 46 + d ^ 2 * 257941248 * 2 ^ 23 + d ^ 3 * 59597083) / 2 ^ 69
      rne32 false (tableTX.getD j 0 * (2 ^ 30 + p) / 2 ^ 30) (i - 30)

/-- LOG2 (R169, R171). -/
def fuLog2 (x : Word) : Word × BitVec 8 :=
  match fval32 x with
  | .nan sig => (qnan32, flagIf sig flInvalid)
  | .inf n => if n then (qnan32, flInvalid) else (inf32 false, 0)
  | .fin n m e =>
    if m = 0 then (inf32 true, flDivzero)
    else if n then (qnan32, flInvalid)
    else
      let sh := 23 - Nat.log2 m
      let u : Nat := m * 2 ^ sh - 2 ^ 23
      let ex : Int := e - sh + 23
      if u = 0 then rne32 (decide (ex < 0)) ex.natAbs 0
      else
        let j : Nat := u / 2 ^ 17
        let dd : Int := (u : Int) - ((2 * j + 1) * 2 ^ 16 : Nat)
        let rho : Int := dd * tableTC j / 2 ^ 23
        let q : Int := (rho * 1549082005 * 2 ^ 60 - rho ^ 2 * 774541002 * 2 ^ 30 + rho ^ 3 * 516360668) / 2 ^ 90
        let y : Int := ex * 2 ^ 30 + tableTL.getD j 0 + q
        rne32 (decide (y < 0)) y.natAbs (-30)

end Sys2Proof.Machine
end

