-- ==== Sys2Proof/Machine/Vector.lean ====
section
/-! DEFINITION. The vector slots (05 R209 to R213, 04 R149 to R153, R168): results of the vector operations and of the
conversions, with their flags and poison.
-/
namespace Sys2Proof.Machine

/-! ### One lane -/

/-- The rounding mode of a vector operation. -/
def rndOf (c : BitVec 3) : Rnd := (Rnd.ofCode c).getD .rne

/-- A word of 0 or 1 bits for a relation. -/
def boolWord (b : Bool) : Word := if b then 1 else 0

/-- The result of an operation in one enabled lane, with its flags (Table 05.6). A compare gives 1 or 0; the
operations that do not act lane by lane are below. -/
def laneOp (o : VOp) (md : Rnd) (sat : Bool) (a b c : Word) : Word × BitVec 8 :=
  match o with
  | .fadd => fp32Add md sat a b
  | .fsub => fp32Sub md sat a b
  | .fmul => fp32Mul md sat a b
  | .fma => fp32Fma md sat a b c
  | .fmin => fp32MinMax false a b
  | .fmax => fp32MinMax true a b
  | .fcmpeq => let r := fp32Cmp .eq a b; (boolWord r.1, r.2)
  | .fcmplt => let r := fp32Cmp .lt a b; (boolWord r.1, r.2)
  | .fcmple => let r := fp32Cmp .le a b; (boolWord r.1, r.2)
  | .fneg => (a ^^^ 0x80000000, 0)
  | .fabs => (a &&& 0x7FFFFFFF, 0)
  | .iadd => (a + b, 0)
  | .isub => (a - b, 0)
  | .imul => (a * b, 0)
  | .and => (a &&& b, 0)
  | .or => (a ||| b, 0)
  | .xor => (a ^^^ b, 0)
  | .shl => (a <<< (b.toNat % 32), 0)
  | .shr => (a >>> (b.toNat % 32), 0)
  | .sar => (a.sshiftRight (b.toNat % 32), 0)
  | .icmpeq => (boolWord (a = b), 0)
  | .icmplt => (boolWord (a.slt b), 0)
  | .icmpltu => (boolWord (a.ult b), 0)
  | .rcp => fuRcp a
  | .div => fuDiv a b
  | .sqrt => fuSqrt a
  | .rsqrt => fuRsqrt a
  | .exp2 => fuExp2 a
  | .log2 => fuLog2 a
  | .sel | .mov | .splat | .rot | .iota | .vredadd | .vredmax => (a, 0)

/-! ### Reductions (05 R213) -/

/-- One step of a reduction: entry i combines entries 2i and 2i + 1. -/
def pairUp (f : Word → Word → Word × BitVec 8) : List Word → List Word × BitVec 8
  | a :: b :: l =>
    let r := f a b
    let t := pairUp f l
    (r.1 :: t.1, r.2 ||| t.2)
  | l => (l, 0)

/-- `n` steps of a reduction. -/
def reduceLanes (f : Word → Word → Word × BitVec 8) : Nat → List Word → List Word × BitVec 8
  | 0, l => (l, 0)
  | n + 1, l =>
    let r := pairUp f l
    let t := reduceLanes f n r.1
    (t.1, r.2 ||| t.2)

/-! ### Whole operations -/

/-- The value and poison of each source lane of an operation: `va`, SPLAT's address register, ROT's rotated lanes or
IOTA's index. -/
def srcLane (g : Gallery) (o : VOp) (f : VecF) (i : Nat) : Word × Bool :=
  let a := g.vr f.va.toNat
  match o with
  | .splat => let x := g.xr f.va.toNat; (x.bits.truncate 32, x.poison)
  | .iota => (BitVec.ofNat 32 i, false)
  | .rot => let j := (i + f.vb.toNat) % 64; (a.lane j, a.poison.getLsbD j)
  | _ => (a.lane i, a.poison.getLsbD i)

/-- The result of an operation that acts lane by lane, disabled lanes kept with their poison (04 R175, R176). -/
def vecLanes (g : Gallery) (o : VOp) (f : VecF) : VCell × BitVec 8 :=
  let en := enabled g f.p f.pn
  let pp := (g.pr f.p.toNat).poison
  let b := g.vr f.vb.toNat
  let c := g.vr f.vc.toNat
  let d := g.vr f.vd.toNat
  let r := (List.range 64).map (fun i =>
    if en.getLsbD i then laneOp o (rndOf f.rnd) f.sat (srcLane g o f i).1 (b.lane i) (c.lane i) else (d.lane i, 0))
  let poison := mask64 (fun i =>
    if en.getLsbD i then
      pp || (srcLane g o f i).2 || (vopReadsVb o && b.poison.getLsbD i) || (decide (o = .fma) && c.poison.getLsbD i)
    else d.poison.getLsbD i)
  ({ bits := lanesV (r.map (fun x => x.1)), poison }, orFlags (r.map (fun x => x.2)))

/-- SEL takes in every lane the operand that the predicate selects, with its poison (04 R175). -/
def vecSel (g : Gallery) (f : VecF) : VCell :=
  let en := enabled g f.p f.pn
  let pp := (g.pr f.p.toNat).poison
  let a := g.vr f.va.toNat
  let b := g.vr f.vb.toNat
  { bits := lanesV ((List.range 64).map (fun i => if en.getLsbD i then a.lane i else b.lane i))
    poison := mask64 (fun i => pp || (if en.getLsbD i then a.poison.getLsbD i else b.poison.getLsbD i)) }

/-- VREDADD and VREDMAX: the result in every lane (05 R213). -/
def vecRed (g : Gallery) (o : VOp) (f : VecF) : VCell × BitVec 8 :=
  let en := enabled g f.p f.pn
  let a := g.vr f.va.toNat
  let neutral : Word := if o = .vredadd then 0x80000000 else 0xFF800000
  let lanes := (List.range 64).map (fun i => if en.getLsbD i then a.lane i else neutral)
  let comb := if o = .vredadd then fp32Add (rndOf f.rnd) f.sat else fp32MinMax true
  let r := reduceLanes comb 6 lanes
  let v := r.1.headD 0
  let poison := (g.pr f.p.toNat).poison || decide (a.poison &&& en ≠ 0)
  ({ bits := lanesV (List.replicate 64 v), poison := if poison then BitVec.allOnes 64 else 0 }, r.2)

/-- A compare: the bits of the enabled lanes of Pd, and its poison (05 R213). -/
def vecCmp (g : Gallery) (o : VOp) (f : VecF) : PCell × BitVec 8 :=
  let en := enabled g f.p f.pn
  let a := g.vr f.va.toNat
  let b := g.vr f.vb.toNat
  let d := g.pr f.vd.toNat
  let r := (List.range 64).map (fun i => if en.getLsbD i then laneOp o .rne false (a.lane i) (b.lane i) 0 else (0, 0))
  let bits := mask64 (fun i => if en.getLsbD i then (r.getD i (0, 0)).1 = 1 else d.bits.getLsbD i)
  let poison := decide ((a.poison ||| b.poison) &&& en ≠ 0) || (g.pr f.p.toNat).poison
    || (decide (en ≠ BitVec.allOnes 64) && d.poison)
  ({ bits, poison }, orFlags (r.map (fun x => x.2)))

/-- The result of an arithmetic-form operation. -/
def vecResult (g : Gallery) (o : VOp) (f : VecF) : RegWrite × BitVec 8 :=
  if vopIsCmp o then
    let r := vecCmp g o f
    (.p (f.vd.truncate 3) r.1, r.2)
  else
    match o with
    | .sel => (.v f.vd (vecSel g f), 0)
    | .vredadd | .vredmax => let r := vecRed g o f; (.v f.vd r.1, r.2)
    | _ => let r := vecLanes g o f; (.v f.vd r.1, r.2)

/-! ### Conversions (04 R149 to R151, 05 R210 to R212) -/

/-- `w` bits of `x` from bit `o` replaced by `v`. -/
def putBits (x : Nat) (o w v : Nat) : Nat :=
  x - (x / 2 ^ o % 2 ^ w) * 2 ^ o + (v % 2 ^ w) * 2 ^ o

/-- CVTN: 64 elements packed from byte pos × 64 × width / 8 of vd (05 R212). -/
def cvtNarrow (g : Gallery) (f : CvtF) : VCell × BitVec 8 :=
  let m := (Fmt.ofCode f.fmt).getD .bf16
  let en := enabled g f.p f.pn
  let pp := (g.pr f.p.toNat).poison || randPoison g f.rnd f.xk
  let a := g.vr f.va.toNat
  let d := g.vr f.vd.toNat
  let base := f.pos.toNat * 64 * m.width
  let r := (List.range 64).map (fun e =>
    if en.getLsbD e then m.convert (rndOf f.rnd) f.sat (randOf g f.xk e) (fval32 (a.lane e)) else (0, 0))
  let bits := (List.range 64).foldl (fun x e =>
    if en.getLsbD e then putBits x (base + e * m.width) m.width (r.getD e (0, 0)).1 else x) d.bits.toNat
  let covers := fun (e i : Nat) =>
    decide (base + e * m.width < 32 * (i + 1) ∧ 32 * i < base + (e + 1) * m.width)
  let poison := mask64 (fun i =>
    let es := (List.range 64).filter (fun e => covers e i)
    let wr := es.filter (fun e => en.getLsbD e)
    let full := decide (wr.length = es.length) && decide (base ≤ 32 * i ∧ 32 * (i + 1) ≤ base + 64 * m.width)
    if wr.isEmpty then d.poison.getLsbD i
    else pp || wr.any (fun e => a.poison.getLsbD e) || (!full && d.poison.getLsbD i))
  ({ bits := BitVec.ofNat 2048 bits, poison }, orFlags (r.map (fun x => x.2)))

/-- CVTW: packed narrow elements exactly to FP32 (05 R212, 04 R149). -/
def cvtWide (g : Gallery) (f : CvtF) : VCell × BitVec 8 :=
  let m := (Fmt.ofCode f.fmt).getD .bf16
  let en := enabled g f.p f.pn
  let pp := (g.pr f.p.toNat).poison
  let a := g.vr f.va.toNat
  let d := g.vr f.vd.toNat
  let base := f.pos.toNat * 64 * m.width
  let r := (List.range 64).map (fun e =>
    if en.getLsbD e then
      let x := a.bits.toNat / 2 ^ (base + e * m.width) % 2 ^ m.width
      let y := Fmt.fp32.convert .rne false 0 (m.value x)
      (BitVec.ofNat 32 y.1, y.2)
    else (d.lane e, 0))
  let poison := mask64 (fun e =>
    if en.getLsbD e then
      pp || a.poison.getLsbD ((base + e * m.width) / 32) || a.poison.getLsbD ((base + e * m.width + m.width - 1) / 32)
    else d.poison.getLsbD e)
  ({ bits := lanesV (r.map (fun x => x.1)), poison }, orFlags (r.map (fun x => x.2)))

/-- CVTI and CVTF: one conversion per enabled lane. -/
def cvtSame (g : Gallery) (f : CvtF) (src dst : Fmt) : VCell × BitVec 8 :=
  let en := enabled g f.p f.pn
  let pp := (g.pr f.p.toNat).poison || randPoison g f.rnd f.xk
  let a := g.vr f.va.toNat
  let d := g.vr f.vd.toNat
  let r := (List.range 64).map (fun e =>
    if en.getLsbD e then
      let y := dst.convert (rndOf f.rnd) f.sat (randOf g f.xk e) (src.value (a.lane e).toNat)
      (BitVec.ofNat 32 y.1, y.2)
    else (d.lane e, 0))
  ({ bits := lanesV (r.map (fun x => x.1))
     poison := mask64 (fun e => if en.getLsbD e then pp || a.poison.getLsbD e else d.poison.getLsbD e) },
    orFlags (r.map (fun x => x.2)))

/-- The result of a conversion. -/
def cvtResult (g : Gallery) (o : CvOp) (f : CvtF) : VCell × BitVec 8 :=
  match o with
  | .cvtn => cvtNarrow g f
  | .cvtw => cvtWide g f
  | .cvti => cvtSame g f .fp32 .int32
  | .cvtf => cvtSame g f .int32 .fp32

/-! ### Issue -/

/-- An arithmetic-form operation: operands at issue, results at completion, flags sticky (05 R186, 04 R180). -/
def opVec (v s : State) (w : Who) (o : VOp) (f : VecF) : State :=
  let gi := galIdx w.ph w.g
  let r := vecResult (v.gal gi) o f
  (s.setFlags gi r.2).inFlight gi (s.now + s.latency w.ph (.vec o f)) [r.1]

/-- A conversion (05 R211, R212). -/
def opCvt (v s : State) (w : Who) (o : CvOp) (f : CvtF) : State :=
  let gi := galIdx w.ph w.g
  let g := v.gal gi
  let r := cvtResult g o f
  (s.setFlags gi r.2).inFlight gi (s.now + s.latency w.ph (.cvt o f)) ([.v f.vd r.1] ++ advWrite g f.adv f.xk)

end Sys2Proof.Machine
end

