-- ==== Sys2Proof/Machine/Matrix.lean ====
section
/-! DEFINITION. The matrix slot (05 R204 to R208, 04 R139 to R141, R154 to R167): tiles, accumulation in the four bank
modes, and readout.
-/
namespace Sys2Proof.Machine

/-! ### Stores of a gallery's own results -/

/-- Whether gallery `gi` poisons every result it writes (03 R121). -/
def State.suspect (s : State) (gi : Nat) : Bool := (s.gal gi).cond = .suspect

/-- A write of bytes within one line of the gallery's own store; out of range it is not made and writes a record
(05 R199, R214, 03 R121). -/
def State.putStore (s : State) (w : Who) (o : Nat) (bs : List Byte) (poison : Bool) : State :=
  let gi := galIdx w.ph w.g
  if offStore o then s.rangeFault w o else s.storeWrite gi o bs (poison || s.suspect gi)

/-! ### Values of elements (04 R137, R140) -/

/-- Element `k` of a packed string of bytes given as a number. -/
def elemAt (m : Fmt) (x k : Nat) : Nat := x / 2 ^ (k * m.width) % 2 ^ m.width

/-- A value times the scale of its block (Table 04.5). In a block of scale byte 255 every element is a quiet NaN, a signalling NaN
too. Log 106 (DESIGN CHOICE). -/
def FVal.scale (v : FVal) (b : Byte) : FVal :=
  if b = 255 then .nan false
  else match v with
    | .fin n m e => .fin n m (e + (b.toNat : Int) - 127)
    | x => x

/-- The scale byte of block `b` of column `c` of a tile; bytes of 127 are not listed. -/
def Tile.scaleOf (t : Tile) (nb c b : Nat) : Byte := SMap.get 0 t.scales (c * nb + b) + 127

/-- The value of element (r, c) of a tile. A tile loaded with scaled = 1 keeps its scales in an MMA of scaled = 0. Log 105 (DESIGN
CHOICE). -/
def Tile.value (t : Tile) (m : Fmt) (r c : Nat) : FVal :=
  (m.value (SMap.get 0 t.elems (r * 64 + c)).toNat).scale (t.scaleOf (blocks m) c (r / 32))

/-- The tile that MLDT loads from the bytes of a packing, transposed or not, with its scale bytes (05 R204). Log 115 (DESIGN CHOICE). -/
def tileOf (m : Fmt) (code : BitVec 4) (tr scaled : Bool) (x : Nat) (sc : List Byte) (poison : Bool) : Tile :=
  let k := tileRows m
  { fmt := code, loaded := true, scaled, poison
    elems := (List.range (k * 64)).filterMap (fun i =>
      let e := elemAt m x (if tr then i % 64 * k + i / 64 else i)
      if e = 0 then none else some (i, BitVec.ofNat 16 e))
    scales := if scaled && m.hasScales then
        (List.range (64 * blocks m)).filterMap (fun i =>
          if sc.getD i 127 = 127 then none else some (i, sc.getD i 127 - 127))
      else [] }

/-! ### Accumulators -/

/-- Flag bits of an accumulator word (04 Table 04.10). -/
def accFlag (i : Nat) : AccWord := 1#192 <<< i
def accPoison : AccWord := accFlag 191
def accNan : AccWord := accFlag 190
def accPinf : AccWord := accFlag 189
def accNinf : AccWord := accFlag 188
def accRange : AccWord := accFlag 187

/-- The flag of an infinite product. -/
def accInf (neg : Bool) : AccWord := if neg then accNinf else accPinf

/-- K of an exact accumulator. -/
def accK (a : AccWord) : Int := (a.extractLsb' 0 187).toInt

/-- The word with K replaced, modulo 2^187. -/
def accSetK (a : AccWord) (k : Int) : AccWord :=
  (a &&& (0x1F#192 <<< 187)) ||| (BitVec.ofInt 187 k).zeroExtend 192

/-- Flags that consuming a signalling NaN sets (04 R135). -/
def sigFlag (x y : FVal) : BitVec 8 := flagIf (x.isSig || y.isSig) flInvalid

/-- A product added to an exact accumulator (04 R157). See 03 R96. -/
def accExact (ea : Int) (a : AccWord) (x y : FVal) : AccWord × BitVec 8 :=
  let (p, zi) := x.mul y
  match p with
  | .nan _ => (a ||| accNan, flagIf zi flInvalid ||| sigFlag x y)
  | .inf n => (a ||| accInf n, 0)
  | .fin n m e =>
    if m = 0 then (a, 0)
    else if 150 + ea ≤ (Nat.log2 m : Int) + e then (a ||| accRange, flAccRange)
    else
      let (q, inx) := roundAt .rtz 0 n m e ea
      (accSetK a (accK a + (if n then -(q : Int) else q)), flagIf inx flAccInexact)

/-- The value of an XF accumulator (04 R162). -/
def xfValue (a : AccWord) : FVal :=
  let e := (a.extractLsb' 64 15).toNat
  .fin (a.getLsbD 79) (a.extractLsb' 0 64).toNat (if e = 0 then -16382 - 63 else (e : Int) - 16383 - 63)

/-- A finite value rounded once to the XF value in RNE, and whether it was inexact (04 R163). -/
def xfRound (neg : Bool) (m : Nat) (e : Int) : BitVec 80 × Bool :=
  if m = 0 then (0, false)
  else
    let q := max ((Nat.log2 m : Int) + e - 63) (-16382 - 63)
    let (n, inx) := roundAt .rne 0 neg m e q
    let (n, q) := if n = 2 ^ 64 then (2 ^ 63, q + 1) else (n, q)
    let ef : Nat := if n < 2 ^ 63 then 0 else (q + 63 + 16383).toNat
    (BitVec.ofNat 80 ((if neg then 2 ^ 79 else 0) + ef * 2 ^ 64 + n), inx)

/-- A product's part in a row of an XF bank: the exact sum of the finite products, and the flags of the others. -/
def xfStep (acc : (Bool × Nat × Int) × AccWord × BitVec 8) (x y : FVal) : (Bool × Nat × Int) × AccWord × BitVec 8 :=
  let (sum, a, fl) := acc
  let (p, zi) := x.mul y
  match p with
  | .nan _ => (sum, a ||| accNan, fl ||| flagIf zi flInvalid ||| sigFlag x y)
  | .inf n => (sum, a ||| accInf n, fl)
  | .fin n m e => (addFin .rne sum.1 sum.2.1 sum.2.2 n m e, a, fl)

/-- One row into an XF accumulator (04 R163). -/
def accXf (a : AccWord) (ps : List (FVal × FVal)) : AccWord × BitVec 8 :=
  let (r, a1, fl) := ps.foldl (fun acc p => xfStep acc p.1 p.2) ((false, 0, 0), a, 0)
  match xfValue a1 with
  | .fin n m e =>
    let (sn, sm, se) := addFin .rne n m e r.1 r.2.1 r.2.2
    let (b, inx) := xfRound sn sm se
    ((a1 &&& (0xF#192 <<< 188)) ||| b.zeroExtend 192, fl ||| flagIf inx flInexact)
  | _ => (a1, fl)

/-- A product added to a forerunner float accumulator (04 R164). -/
def accFf (a : AccWord) (x y : FVal) : AccWord × BitVec 8 :=
  let (p, zi) := x.mul y
  let (b, fl) := Fmt.fp32.addVals .rne false (fval32 (a.extractLsb' 0 32)) p
  ((a &&& accPoison) ||| BitVec.ofNat 192 b, fl ||| flagIf zi flInvalid)

/-- An integral value as an integer. -/
def FVal.toInteger : FVal → Int
  | .fin n m e => let z : Int := (m * 2 ^ e.toNat : Nat); if n then -z else z
  | _ => 0

/-- A product added to a forerunner integer accumulator, modulo 2^32 (04 R165). -/
def accFi (a : AccWord) (x y : FVal) : AccWord :=
  (a &&& accPoison) ||| (a.extractLsb' 0 32 + BitVec.ofInt 32 (x.toInteger * y.toInteger)).zeroExtend 192

/-- A fold that gathers flags. -/
def foldFlags {α β : Type} (f : α → β → α × BitVec 8) : α → List β → α × BitVec 8
  | a, [] => (a, 0)
  | a, b :: bs =>
    let r := f a b
    let t := foldFlags f r.1 bs
    (t.1, r.2 ||| t.2)

/-- One row's products into one accumulator under the bank's mode. -/
def accRow (mode : BankMode) (ea : Int) (a : AccWord) (ps : List (FVal × FVal)) : AccWord × BitVec 8 :=
  match mode with
  | .exact => foldFlags (fun a p => accExact ea a p.1 p.2) a ps
  | .xf => accXf a ps
  | .ffloat => foldFlags (fun a p => accFf a p.1 p.2) a ps
  | .fint => (ps.foldl (fun a p => accFi a p.1 p.2) a, 0)

/-- The words of a bank as a map, from accumulator 0 up. -/
def bankWords (l : List AccWord) : SMap AccWord := l.zipIdx.filterMap (fun e => if e.1 = 0 then none else some (e.2, e.1))

/-- Accumulator `j` of a bank. -/
def Bank.word (b : Bank) (j : Nat) : AccWord := SMap.get 0 b.words j

/-- All 64 accumulators. -/
def Bank.list (b : Bank) : List AccWord := (List.range 64).map b.word

/-- The bank with `poison` ORed into every accumulator. -/
def Bank.poisonAll (b : Bank) (poison : Bool) : Bank :=
  if poison then { b with words := bankWords (b.list.map (fun w => w ||| accPoison)) } else b

/-- Rows into a bank in order (05 R205). `rows` lists, for each row, its element values. -/
def bankRows (b : Bank) (col : Nat → Nat → FVal) (k : Nat) (rows : List (List FVal)) : List AccWord × BitVec 8 :=
  foldFlags (fun (ws : List AccWord) (row : List FVal) =>
    let r := ws.zipIdx.map (fun e =>
      accRow b.mode b.ea.toInt e.1 (row.zip ((List.range k).map (fun i => col i e.2))))
    (r.map (fun x => x.1), orFlags (r.map (fun x => x.2)))) b.list rows

/-! ### Check errors of accumulators (03 R93) -/

/-- Whether a check error lies in a bank of gallery `gi`. -/
def inBank (gi bank : Nat) : UpSite → Bool
  | .acc g b _ => g = gi && b = bank
  | _ => false

/-- The accumulator that a check error lies in. -/
def accIndex : UpSite → Nat
  | .acc _ _ j => j
  | _ => 0

/-- The accumulators in which uncorrectable errors lie, each once. -/
def badAccs (hit : List Upset) : List Nat :=
  ((hit.filter (fun u => !u.ce)).map (fun u => accIndex u.site % 64)).eraseDups

/-- A read of a bank checks its accumulators: corrected errors are counted; an uncorrectable one poisons its
accumulator, counts once for the accumulator, marks the gallery suspect and writes a record. -/
def State.checkBank (s : State) (w : Who) (bank : Nat) : State :=
  let gi := galIdx w.ph w.g
  let hit := s.upsets.filter (fun u => inBank gi bank u.site)
  if hit.isEmpty then s
  else
    let s1 := { s with upsets := s.upsets.filter (fun u => !inBank gi bank u.site) }
    let s2 := s1.countCe gi 2 ((hit.filter (fun u => u.ce)).length)
    s2.each (badAccs hit) (fun s j =>
      let s3 := s.updGal gi (fun g =>
        let b := g.bank bank
        { (g.setBank bank { b with words := SMap.upd 0 b.words j (· ||| accPoison) }) with ue := satInc g.ue })
      (s3.markSuspect gi).raise (s3.galRec w 0x0204 0 true (BitVec.ofNat 64 (bank + 4 * j))))

/-! ### Operations -/

/-- The bank mode that an operation names, under HAL_MODE.mborad_acc (04 R154). -/
def bankMode (mborad mode : Bool) : BankMode :=
  match mborad, mode with
  | false, false => .exact
  | false, true => .xf
  | true, false => .ffloat
  | true, true => .fint

/-- HAL_MODE.mborad_acc of a hall. -/
def State.mborad (s : State) (ph : Nat) : Bool := (s.hall ph).reg.mode.getLsbD 0

/-- MLDT (05 R204). -/
def opMldt (v s : State) (w : Who) (f : MldtF) : State :=
  let gi := galIdx w.ph w.g
  let g := v.gal gi
  let m := (Fmt.ofCode f.fmt).getD .e4m3
  let xt := g.xr f.xt.toNat
  let xs := g.xr f.xs.toNat
  let (s1, bs, p1) := State.loadStore v s w (storeOff xt.bits 512) (tileBytes m)
  let (s2, sc, p2) := if f.scaled then State.loadStore v s1 w (storeOff xs.bits 256) (64 * blocks m) else (s1, [], false)
  let poison := p1 || p2 || xt.poison || (f.scaled && xs.poison)
  let t := tileOf m f.fmt f.tr f.scaled (leNat bs) sc poison
  s2.inFlight gi (s.now + s.latency w.ph (.mldt f)) ([.shadow t] ++ xInc g f.inc f.xt (tileBytes m))

/-- Whether a bank's mode accepts the operands of an MMA (04 Table 04.9). -/
def modeAccepts (mode : BankMode) (a b : Fmt) (scaled : Bool) : Bool :=
  match mode with
  | .exact => a.width ≤ 8
  | .xf => a.width = 16
  | .ffloat => true
  | .fint => a.isInt && b.isInt && !scaled

/-- Whether the loader lets an MMA stand here: the tile it uses is loaded, has the row's element width, and the bank's
mode accepts both (05 R206, 04 R138, R155). An MMA that it rejects never issues. -/
def mmaFits (g : Gallery) (f : MmaF) : Bool :=
  let t := if f.swap then g.shadow else g.active
  match Fmt.ofCode f.fmt, Fmt.ofCode t.fmt with
  | some a, some b => t.loaded && decide (a.width = b.width)
      && modeAccepts (g.bank f.bank.toNat).mode a b (f.scaled || t.scaled)
  | _, _ => false

/-- A lane of the first `k` of a V register is poisoned: the lanes that `4 * k` bytes of it take (05 R205, 04 R175). -/
def VCell.poisonedTo (c : VCell) (k : Nat) : Bool := c.poison.toNat % 2 ^ k != 0

/-- The element values of row `i` of the input (05 R205). -/
def rowVals (m : Fmt) (x : Nat) (sc : List Byte) (scaled : Bool) (i : Nat) : List FVal :=
  (List.range (tileRows m)).map (fun k =>
    let e := m.value (elemAt m x (i * tileRows m + k))
    if scaled && m.hasScales then e.scale (sc.getD (i * blocks m + k / 32) 127) else e)

/-- MMA (05 R205, 04 R156 to R165). -/
def opMma (v s : State) (w : Who) (f : MmaF) : State :=
  let gi := galIdx w.ph w.g
  let g := v.gal gi
  let m := (Fmt.ofCode f.fmt).getD .e4m3
  let n := f.n1.toNat + 1
  let t := if f.swap then g.shadow else g.active
  let tm := (Fmt.ofCode t.fmt).getD .e4m3
  let xr := g.xr f.xr.toNat
  let xs := g.xr f.xs.toNat
  let vr := g.vr f.vr.toNat
  let vs := g.vr (f.vr.toNat + 1)
  let (s1, x, p1) :=
    if f.rv then (s, vr.bits.toNat, vr.poisonedTo (n * rowBytes m / 4))
    else
      let r := State.loadStore v s w (storeOff xr.bits 64) (n * rowBytes m)
      (r.1, leNat r.2.1, r.2.2 || xr.poison)
  let (s2, sc, p2) :=
    if !f.scaled then (s1, [], false)
    else if f.rv then (s1, bvBytes 256 vs.bits, m.hasScales && vs.poisonedTo ((n * blocks m + 3) / 4))
    else
      let r := State.loadStore v s1 w (storeOff xs.bits 512) (n * blocks m)
      (r.1, r.2.1, r.2.2 || xs.poison)
  let s3 := s2.checkBank w f.bank.toNat
  let b0 := (s3.gal gi).bank f.bank.toNat
  let rows := (List.range n).map (rowVals m x sc f.scaled)
  let (ws, fl) := bankRows b0 (fun r c => t.value tm r c) (tileRows m) rows
  let b1 := ({ b0 with words := bankWords ws }).poisonAll (p1 || p2 || t.poison)
  let s4 := s3.updGal gi (fun g => if f.swap then { g with active := g.shadow, shadow := g.active } else g)
  let s5 := s4.updHall w.ph (fun h => { h with cnt := { h.cnt with mmaRows := satAdd h.cnt.mmaRows n } })
  let step := (n * rowBytes m + 63) / 64 * 64
  (s5.setFlags gi fl).inFlight gi (s.now + s.latency w.ph (.mma f))
    ([.bank f.bank b1] ++ xInc g (f.inc && !f.rv) f.xr step)

/-- MCLR (05 R207, 04 R154). -/
def opMclr (_v s : State) (w : Who) (f : MclrF) : State :=
  s.inFlight (galIdx w.ph w.g) (s.now + s.latency w.ph (.mclr f))
    [.bank f.bank { mode := bankMode (s.mborad w.ph) f.mode, ea := f.ea, words := [] }]

/-- The part of an image word that a mode keeps (04 Table 04.10, R165). -/
def fillWord (mode : BankMode) (x : AccWord) : AccWord :=
  match mode with
  | .exact => x
  | .xf => (x &&& (0xF#192 <<< 188)) ||| (x.extractLsb' 0 80).zeroExtend 192
  | .ffloat | .fint => (x &&& accPoison) ||| (x.extractLsb' 0 32).zeroExtend 192

/-- MFILL (05 R207). -/
def opMfill (v s : State) (w : Who) (f : MfillF) : State :=
  let gi := galIdx w.ph w.g
  let g := v.gal gi
  let xa := g.xr f.xa.toNat
  let mode := bankMode (s.mborad w.ph) f.mode
  let (s1, bs, p) := State.loadStore v s w (storeOff xa.bits 512) 1536
  let x := leNat bs
  let ws := (List.range 64).map (fun j => fillWord mode (BitVec.ofNat 192 (x / 2 ^ (192 * j))))
  let b := ({ mode, ea := f.ea, words := bankWords ws : Bank }).poisonAll (p || xa.poison)
  s1.inFlight gi (s.now + s.latency w.ph (.mfill f)) ([.bank f.bank b] ++ xInc g f.inc f.xa 1536)

/-- The bytes of a bank's image (04 R160). -/
def Bank.image (b : Bank) : List Byte := b.list.flatMap (fun w => bvBytes 24 w)

/-- MSPILL (05 R207): three lines, each poisoned when an accumulator in it is. -/
def opMspill (v s : State) (w : Who) (f : MspillF) : State :=
  let gi := galIdx w.ph w.g
  let g := v.gal gi
  let xa := g.xr f.xa.toNat
  let s1 := s.checkBank w f.bank.toNat
  let b := (s1.gal gi).bank f.bank.toNat
  let img := b.image
  let o := storeOff xa.bits 512
  let at_ := fun (i : Nat) => (o + 512 * i) % 2 ^ 21
  let pois := fun (i : Nat) => xa.poison || (List.range 64).any (fun j =>
    decide (24 * j < 512 * (i + 1) ∧ 512 * i < 24 * (j + 1)) && (b.word j).getLsbD 191)
  let s2 := s1.each ((List.range 3).filter (fun i => !offStore (at_ i)))
    (fun s i => s.putStore w (at_ i) ((img.drop (512 * i)).take 512) (pois i))
  let s3 := match (List.range 3).find? (fun i => offStore (at_ i)) with
    | some i => s2.rangeFault w (at_ i)
    | none => s2
  s3.inFlight gi (s.now + s.latency w.ph (.mspill f)) (xInc g f.inc f.xa 1536)

/-- The destination format of a readout (05 Table 05.5). -/
def readFmt (c : BitVec 2) : Fmt :=
  match c.toNat with
  | 0 => .fp32
  | 1 => .bf16
  | _ => .fp16

/-- The exact value of an accumulator times 2^T, apart from its flags (04 R166). -/
def accValue (mode : BankMode) (ea t : Int) (a : AccWord) : FVal :=
  let sc := fun (v : FVal) => match v with | .fin n m e => FVal.fin n m (e + t) | x => x
  match mode with
  | .exact => let k := accK a; .fin (decide (k < 0)) k.natAbs (ea + t)
  | .xf => sc (xfValue a)
  | .ffloat => sc (fval32 (a.extractLsb' 0 32))
  | .fint => sc (FVal.ofInt (a.extractLsb' 0 32).toInt)

/-- One accumulator read out (04 Table 04.11). -/
def readAcc (mode : BankMode) (ea t : Int) (d : Fmt) (md : Rnd) (sat : Bool) (r : Word) (a : AccWord) :
    Nat × BitVec 8 :=
  let flagged := decide (mode = .exact) || decide (mode = .xf)
  if flagged && (a.getLsbD 190 || (a.getLsbD 189 && a.getLsbD 188)) then (d.canonNaN, flInvalid)
  else if decide (mode = .exact) && a.getLsbD 187 then (d.canonNaN, flInvalid)
  else if flagged && a.getLsbD 189 then (d.infMag, 0)
  else if flagged && a.getLsbD 188 then (d.pack true d.infMag, 0)
  else match accValue mode ea t a with
    | .fin n m e => if m = 0 then (0, 0) else d.convert md sat r (.fin n m e)
    | x => d.convert md sat r x

/-- MRD (05 R208, 04 R166, R167). See 03 R97. -/
def opMrd (v s : State) (w : Who) (f : MrdF) : State :=
  let gi := galIdx w.ph w.g
  let g := v.gal gi
  let s1 := s.checkBank w f.bank.toNat
  let b := (s1.gal gi).bank f.bank.toNat
  let d := readFmt f.dfmt
  let rp := randPoison g f.rnd f.xk
  let old := g.vr f.vd.toNat
  let r := (List.range 64).map (fun j =>
    readAcc b.mode b.ea.toInt f.t.toInt d (rndOf f.rnd) f.sat (randOf g f.xk j) (b.word j))
  let p := fun (j : Nat) => rp || (b.word j).getLsbD 191
  let val := fun (j : Nat) => (r.getD j (0, 0)).1
  let half := if f.pos then 32 else 0
  let cell : VCell :=
    if d = .fp32 then { bits := lanesV ((List.range 64).map (fun j => BitVec.ofNat 32 (val j))), poison := mask64 p }
    else
      { bits := lanesV ((List.range 64).map (fun i =>
          if half ≤ i ∧ i < half + 32 then
            BitVec.ofNat 32 (val (2 * (i - half)) + 2 ^ 16 * val (2 * (i - half) + 1))
          else old.lane i))
        poison := mask64 (fun i =>
          if half ≤ i ∧ i < half + 32 then p (2 * (i - half)) || p (2 * (i - half) + 1) else old.poison.getLsbD i) }
  let clr := if f.clr then [RegWrite.bank f.bank { b with words := [] }] else []
  (s1.setFlags gi (orFlags (r.map (fun x => x.2)))).inFlight gi (s.now + s.latency w.ph (.mrd f))
    ([.v f.vd cell] ++ clr ++ advWrite g f.adv f.xk)

end Sys2Proof.Machine
end

