-- ==== Sys2Proof/Machine/LoadStore.lean ====
section
/-! DEFINITION. The load and store slots and the fingerprint unit (05 R198 to R200, R214, R225, R226). -/
namespace Sys2Proof.Machine

/-- The words of 4n bytes. -/
def wordsOf (n x : Nat) : List Word := (List.range n).map (fun i => BitVec.ofNat 32 (x / 2 ^ (32 * i)))

/-- Every lane's poison. -/
def allPoison (b : Bool) : BitVec 64 := if b then BitVec.allOnes 64 else 0

/-- LDH: 256 bytes to a V register (05 R214). -/
def opLdh (v s : State) (w : Who) (f : LdF) : State :=
  let gi := galIdx w.ph w.g
  let g := v.gal gi
  let xa := g.xr f.xa.toNat
  let (s1, bs, p) := State.loadStore v s w (storeOff (effAddr xa.bits f.imm 256) 256) 256
  s1.inFlight gi (s.now + s.latency w.ph (.ldh f))
    ([.v f.vd { bits := BitVec.ofNat 2048 (leNat bs), poison := allPoison (p || xa.poison) }] ++ xInc g f.inc f.xa 256)

/-- LDL: 512 bytes to V[vd] and V[vd + 1] (05 R214). -/
def opLdl (v s : State) (w : Who) (f : LdF) : State :=
  let gi := galIdx w.ph w.g
  let g := v.gal gi
  let xa := g.xr f.xa.toNat
  let (s1, bs, p) := State.loadStore v s w (storeOff (effAddr xa.bits f.imm 512) 512) 512
  let po := allPoison (p || xa.poison)
  s1.inFlight gi (s.now + s.latency w.ph (.ldl f))
    ([.v f.vd { bits := BitVec.ofNat 2048 (leNat (bs.take 256)), poison := po },
      .v (f.vd + 1) { bits := BitVec.ofNat 2048 (leNat (bs.drop 256)), poison := po }] ++ xInc g f.inc f.xa 512)

/-- LDX: 8 bytes to an X register (05 R200, R214). When the load also advances that register, what the register then holds is a
free value, since the manual states neither the loaded nor the advanced value (log entry 12, DESIGN CHOICE). -/
def opLdx (v s : State) (w : Who) (f : LdF) : State :=
  let gi := galIdx w.ph w.g
  let g := v.gal gi
  let xa := g.xr f.xa.toNat
  let (s1, bs, p) := State.loadStore v s w (storeOff (effAddr xa.bits f.imm 8) 8) 8
  let x := BitVec.ofNat 64 (leNat bs)
  let bits := if f.inc && f.vd.truncate 4 = f.xa then Config.ldxBoth x (xa.bits + 8) else x
  s1.inFlight gi (s.now + s.latency w.ph (.ldx f))
    (xInc g f.inc f.xa 8 ++ [.x (f.vd.truncate 4) { bits, poison := p || xa.poison }])

/-- The enabled lanes of a V register written to 256 bytes of store; disabled lanes' bytes are not written
(05 R192, R214). -/
def State.putLanes (s : State) (w : Who) (o : Nat) (c : VCell) (en : BitVec 64) (pa : Bool) : State :=
  if offStore o then s.rangeFault w o
  else if en = BitVec.allOnes 64 then s.putStore w o (bvBytes 256 c.bits) (pa || c.poison != 0)
  else
    (List.range 64).foldl (fun s i =>
      if en.getLsbD i then s.putStore w (o + 4 * i) (bvBytes 4 (c.lane i)) (pa || c.poison.getLsbD i) else s) s

/-- STH (05 R214, R192): a poisoned predicate or address register poisons what is written. -/
def opSth (v s : State) (w : Who) (f : StF) : State :=
  let gi := galIdx w.ph w.g
  let g := v.gal gi
  let xa := g.xr f.xa.toNat
  let o := storeOff (effAddr xa.bits f.imm 256) 256
  let pa := xa.poison || (g.pr f.p.toNat).poison
  let s1 := s.putLanes w o (g.vr f.vs.toNat) (enabled g f.p f.pn) pa
  s1.inFlight gi (s.now + s.latency w.ph (.sth f)) (xInc g f.inc f.xa 256)

/-- STL (05 R214, R192): with every lane enabled it covers the whole line. -/
def opStl (v s : State) (w : Who) (f : StF) : State :=
  let gi := galIdx w.ph w.g
  let g := v.gal gi
  let xa := g.xr f.xa.toNat
  let o := storeOff (effAddr xa.bits f.imm 512) 512
  let pa := xa.poison || (g.pr f.p.toNat).poison
  let en := enabled g f.p f.pn
  let a := g.vr f.vs.toNat
  let b := g.vr (f.vs.toNat + 1)
  let s1 :=
    if en = BitVec.allOnes 64 then
      s.putStore w o (bvBytes 256 a.bits ++ bvBytes 256 b.bits) (pa || a.poison != 0 || b.poison != 0)
    else if offStore o then s.rangeFault w o
    else (s.putLanes w o a en pa).putLanes w (o + 256) b en pa
  s1.inFlight gi (s.now + s.latency w.ph (.stl f)) (xInc g f.inc f.xa 512)

/-- STX (05 R214, Table 05.8): the register is X[vs[3:0]]; bits [5:4] of vs choose nothing. Log 116 (DEDUCED). -/
def opStx (v s : State) (w : Who) (f : StF) : State :=
  let gi := galIdx w.ph w.g
  let g := v.gal gi
  let xa := g.xr f.xa.toNat
  let x := g.xr (f.vs.toNat % 16)
  let s1 := s.putStore w (storeOff (effAddr xa.bits f.imm 8) 8) (bvBytes 8 x.bits) (x.poison || xa.poison)
  s1.inFlight gi (s.now + s.latency w.ph (.stx f)) (xInc g f.inc f.xa 8)

/-! ### Fingerprints -/

/-- FPI (05 R225). A suspect gallery's result carries poison at completion (03 R121). -/
def opFpi (_v s : State) (w : Who) (f : BitVec 2) : State :=
  s.inFlight (galIdx w.ph w.g) (s.now + s.latency w.ph (.fpi f))
    [.f f { crc := 0xFFFFFFFFFFFFFFFF, init := true, poison := false, lines := 0 }]

/-- FPA: n lines fed byte by byte; the bytes as stored, poisoned or not (05 R225, R226). -/
def opFpa (v s : State) (w : Who) (f : FpaF) : State :=
  let gi := galIdx w.ph w.g
  let g := v.gal gi
  let xa := g.xr f.xa.toNat
  let n := f.n1.toNat + 1
  let c := g.fr f.f.toNat
  let (s1, bs, p) := State.loadStore v s w (storeOff xa.bits 512) (512 * n)
  s1.inFlight gi (s.now + s.latency w.ph (.fpa f))
    ([.f f.f { c with crc := crcBytes c.crc bs, poison := c.poison || p || xa.poison, lines := satAdd c.lines n }]
      ++ xInc g f.inc f.xa (512 * n))

/-- The 32 bytes of a fingerprint record (05 Table 05.12). -/
def fpRecord (c : FCell) (f : FpoutF) (vh g : Nat) (poison : Bool) : List Byte :=
  bvBytes 8 (c.crc ^^^ 0xFFFFFFFFFFFFFFFF#64) ++ bvBytes 2 f.tag ++ leBytes 1 vh ++ leBytes 1 g
    ++ leBytes 1 ((if poison then 1 else 0) + (if c.init then 0 else 2)) ++ leBytes 1 f.f.toNat ++ zeros 2
    ++ bvBytes 4 c.lines ++ zeros 12

/-- FPOUT (05 R225, R226): the record is written unpoisoned, whatever its address register or its gallery. A suspect gallery's
record carries flag bit 0 (03 R121). -/
def opFpout (v s : State) (w : Who) (f : FpoutF) : State :=
  let gi := galIdx w.ph w.g
  let g := v.gal gi
  let xa := g.xr f.xa.toNat
  let c := g.fr f.f.toNat
  let o := storeOff xa.bits 32
  let bs := fpRecord c f (s.hall w.ph).vh w.g (c.poison || s.suspect gi)
  let s1 := if offStore o then s.rangeFault w o else s.storeWrite gi o bs false
  s1.inFlight gi (s.now + s.latency w.ph (.fpout f)) (xInc g f.inc f.xa 32)

end Sys2Proof.Machine
end

