-- ==== Sys2Proof/Machine/Transport.lean ====
section
/-! DEFINITION. The transport slot (05 R215 to R219, R614; 06 R232 to R245): corridor, alcoves, stairwells, bays and
requests to the memory controllers. Each operation has the condition of 02 Table 02.1 that it waits for (`…Ready`) and
its effect (`op…`).
-/
namespace Sys2Proof.Machine

/-! ### Entries of alcove and stairwell buffers (02 R50, R51; 06 R234, R242, R245) -/

/-- The alcove buffer that AWR on side `side` of hall `ph` fills. -/
def alcoveKey (ph side : Nat) : Nat := ph * 4 + side

/-- The stairwell buffer of hall `ph` for lines from compute die `die`. -/
def stairKey (ph die : Nat) : Nat := ph * 4 + die

def Xport.alc (x : Xport) (k : Nat) : List BufEnt := SMap.get [] x.alcove k
def Xport.stw (x : Xport) (k : Nat) : List BufEnt := SMap.get [] x.stair k

/-- Entries of a buffer read at TREAD `t`: they are free from t + 1 (02 R50). -/
def Xport.freedAt (x : Xport) (k t : Nat) : Nat := (x.freed.filter (fun e => e.1 = k && e.2 = t)).length

/-- The record of a read at TREAD `t`, older ones dropped; `full`: the buffer had no free entry before. -/
def Xport.free (x : Xport) (k t : Nat) (full : Bool) : Xport :=
  { x with freed := (k, t) :: x.freed.filter (fun e => e.2 = t)
           roomAt := if full then SMap.set 0 x.roomAt k (t + 1) else x.roomAt }

/-- The lines that wait for a place, in the order of their issue (06 R240). -/
def placeLine (l : StwLine) : List StwLine → List StwLine
  | [] => [l]
  | x :: xs => if l.at_ < x.at_ then l :: x :: xs else x :: placeLine l xs

/-- A line waits for a place on its stairwell. -/
def State.sendLine (s : State) (l : StwLine) : State :=
  { s with xport := { s.xport with waiting := placeLine l s.xport.waiting } }

/-- The oldest entry of a buffer, when it is present at TREAD `t`. -/
def oldest (l : List BufEnt) (t : Nat) : Option BufEnt :=
  match l with
  | e :: _ => if e.from_ ≤ t then some e else none
  | [] => none

/-- A line of zeros marked poisoned. -/
def deadLine (t : Nat) : BufEnt := { line := 0, poison := true, from_ := t }

/-- The transport-path-absent fault (05 R614, 10 Table 10.13). -/
def State.pathAbsent (s : State) (w : Who) (n : Nat) (stairs read : Bool) : State :=
  s.raise (s.galRec w 0x011C 1 false
    (BitVec.ofNat 64 (n + (if stairs then 4 else 0) + (if read then 8 else 0))))

/-- A hall withdrawn for a regulator failure neither sends nor takes (12 R500). -/
def State.deadHall (s : State) (ph : Nat) : Bool := (s.hall ph).pwr.failed

/-- The opposite side of an alcove. -/
def oppSide (side : Nat) : Nat := (side + 2) % 4

/-! ### AWR and ARD (05 R216) -/

def awrReady (s : State) (w : Who) (f : SideF) : Bool :=
  match alcoveNbr w.ph f.side.toNat with
  | none => true
  | some n =>
    let k := alcoveKey w.ph f.side.toNat
    s.deadHall n || decide ((s.xport.alc k).length + s.xport.freedAt k s.now < 8)

/-- AWR: the line into the outbound buffer; an entry is present at the budget at the latest (06 R235). -/
def opAwr (v s : State) (w : Who) (f : SideF) : State :=
  let gi := galIdx w.ph w.g
  let g := v.gal gi
  let xa := g.xr f.xa.toNat
  let due := s.now + s.latency w.ph (.awr f)
  let inc := xInc g f.inc f.xa 512
  match alcoveNbr w.ph f.side.toNat with
  | none => (s.pathAbsent w f.side.toNat false false).inFlight gi due inc
  | some n =>
    let (s1, bs, p) := State.loadStore v s w (storeOff xa.bits 512) 512
    let k := alcoveKey w.ph f.side.toNat
    let e : BufEnt := { line := BitVec.ofNat 4096 (leNat bs), poison := p || xa.poison || s1.suspect gi, from_ := due }
    let s2 := if s1.deadHall n then s1
      else { s1 with xport := { s1.xport with alcove := SMap.set [] s1.xport.alcove k (s1.xport.alc k ++ [e]) } }
    s2.inFlight gi due (.present k :: inc)

/-- The entry that an ARD takes: the oldest present one, or poisoned zeros from a dead hall (12 R500). -/
def ardEntry (s : State) (n side : Nat) : Option BufEnt :=
  match oldest (s.xport.alc (alcoveKey n (oppSide side))) s.now with
  | some e => some e
  | none => if s.deadHall n then some (deadLine s.now) else none

def ardReady (s : State) (w : Who) (f : SideF) : Bool :=
  match alcoveNbr w.ph f.side.toNat with
  | none => true
  | some n => (ardEntry s n f.side.toNat).isSome

/-- A line written to the store of a gallery by its own transport operation. -/
def State.putLine (s : State) (w : Who) (o : Nat) (l : Line) (p : Bool) : State := s.putStore w o (bvBytes 512 l) p

/-- An alcove read checks its entry (06 R236): an uncorrectable error delivers the line poisoned, writes a record and
sets the error state. -/
def State.checkAlcove (s : State) (w : Who) (n side : Nat) : State × Bool :=
  let hit := s.upsets.filter (fun u => u.site = .alcove w.ph side)
  let s1 := { s with upsets := s.upsets.filter (fun u => !decide (u.site = .alcove w.ph side)) }
  if hit.any (fun u => !u.ce) then
    (s1.raise (s1.galRec w 0x0205 3 false (BitVec.ofNat 64 (side + 256 * n))), true)
  else (s1, false)

/-- ARD (05 R216). -/
def opArd (v s : State) (w : Who) (f : SideF) : State :=
  let gi := galIdx w.ph w.g
  let g := v.gal gi
  let xa := g.xr f.xa.toNat
  let o := storeOff xa.bits 512
  let due := s.now + s.latency w.ph (.ard f)
  let inc := xInc g f.inc f.xa 512
  match alcoveNbr w.ph f.side.toNat with
  | none => ((s.pathAbsent w f.side.toNat false true).putLine w o 0 true).inFlight gi due inc
  | some n =>
    match ardEntry v n f.side.toNat with
    | none => s
    | some e =>
      let k := alcoveKey n (oppSide f.side.toNat)
      let (s1, bad) := s.checkAlcove w n f.side.toNat
      let full := decide (8 ≤ (s1.xport.alc k).length + s1.xport.freedAt k s.now)
      let s2 := { s1 with xport :=
        ({ s1.xport with alcove := SMap.set [] s1.xport.alcove k ((s1.xport.alc k).drop 1) }).free k s.now full }
      (s2.putLine w o e.line (e.poison || bad || xa.poison)).inFlight gi due inc

/-! ### SWR and SRD (05 R216, 06 R241, R242) -/

/-- Lines on their way to a stairwell hall buffer. -/
def Xport.bound (x : Xport) (ph die : Nat) : Nat :=
  ((x.waiting ++ x.flying).filter (fun l => decide (l.dest = .hall ph die))).length

def swrReady (s : State) (w : Who) (f : SideF) : Bool :=
  let own := dieOfHall w.ph
  let d := f.side.toNat
  let m := mirror w.ph d
  let k := stairKey m own
  decide (d = own) || s.deadHall m
    || decide ((s.xport.stw k).length + s.xport.bound m own + s.xport.freedAt (256 + k) s.now < 16)

/-- SWR: the line waits for a stairwell frame toward the mirror hall. -/
def opSwr (v s : State) (w : Who) (f : SideF) : State :=
  let gi := galIdx w.ph w.g
  let g := v.gal gi
  let xa := g.xr f.xa.toNat
  let own := dieOfHall w.ph
  let d := f.side.toNat
  let due := s.now + s.latency w.ph (.swr f)
  let inc := xInc g f.inc f.xa 512
  if d = own then (s.pathAbsent w d true false).inFlight gi due inc
  else
    let (s1, bs, p) := State.loadStore v s w (storeOff xa.bits 512) 512
    let m := mirror w.ph d
    let l : StwLine := { src := own, dst := d, sched := true, fails := 0, due := 0, line := BitVec.ofNat 4096 (leNat bs)
                         poison := p || xa.poison || s1.suspect gi, dest := .hall m own, at_ := s.now
                         floor := s.floorOf w.ph due }
    let s2 := if s1.deadHall m then s1 else s1.sendLine l
    s2.inFlight gi due inc

/-- The entry that an SRD takes. -/
def srdEntry (s : State) (ph d : Nat) : Option BufEnt :=
  match oldest (s.xport.stw (stairKey ph d)) s.now with
  | some e => some e
  | none => if s.deadHall (mirror ph d) then some (deadLine s.now) else none

def srdReady (s : State) (w : Who) (f : SideF) : Bool :=
  decide (f.side.toNat = dieOfHall w.ph) || (srdEntry s w.ph f.side.toNat).isSome

/-- SRD. -/
def opSrd (v s : State) (w : Who) (f : SideF) : State :=
  let gi := galIdx w.ph w.g
  let g := v.gal gi
  let xa := g.xr f.xa.toNat
  let d := f.side.toNat
  let o := storeOff xa.bits 512
  let due := s.now + s.latency w.ph (.srd f)
  let inc := xInc g f.inc f.xa 512
  if d = dieOfHall w.ph then ((s.pathAbsent w d true true).putLine w o 0 true).inFlight gi due inc
  else
    match srdEntry v w.ph d with
    | none => s
    | some e =>
      let k := stairKey w.ph d
      let full := decide (16 ≤ (s.xport.stw k).length + s.xport.bound w.ph d + s.xport.freedAt (256 + k) s.now)
      let s1 := { s with xport :=
        ({ s.xport with stair := SMap.set [] s.xport.stair k ((s.xport.stw k).drop 1) }).free (256 + k) s.now full }
      (s1.putLine w o e.line (e.poison || xa.poison)).inFlight gi due inc

/-! ### CSEND (05 R215, 03 R104 to R107) -/

/-- The receivers of a CSEND: the galleries of the mask, not the sender, not fenced. -/
def csendTo (s : State) (w : Who) (f : CsendF) : List Nat :=
  let xm := (s.gal (galIdx w.ph w.g)).xr f.xm.toNat
  (List.range 16).filter (fun r =>
    xm.bits.getLsbD r && r != w.g && (s.gal (galIdx w.ph r)).cond != .fenced)

/-- The entries of a receive buffer that are not free at TREAD `t`: those that hold a line, and those that port T has not emptied
before (03 R106, 02 R50). -/
def Gallery.rxTaken (g : Gallery) (t : Nat) : Nat := g.rx.length + (g.rxFreed.filter (fun x => t ≤ x)).length

/-- A line of a gallery's store has an earlier delivery of a transport operation of its own pending at TREAD `t` (05 R191). -/
def Gallery.awaits (g : Gallery) (l t : Nat) : Bool := g.pend.contains l || decide (t < SMap.get 0 g.landAt l)

/-- Each receive buffer holds four lines (03 R106), and no earlier delivery to the line is pending at a receiver (05 R191). -/
def csendReady (s : State) (w : Who) (f : CsendF) : Bool :=
  let l := storeOff ((s.gal (galIdx w.ph w.g)).xr f.xa.toNat).bits 512 / 512
  (csendTo s w f).all (fun r =>
    let g := s.gal (galIdx w.ph r)
    decide (g.rxTaken s.now < 4) && !g.awaits l s.now)

/-- CSEND: the line enters the receive buffers and reaches the stores at completion. See 03 R105. -/
def opCsend (v s : State) (w : Who) (f : CsendF) : State :=
  let gi := galIdx w.ph w.g
  let g := v.gal gi
  let xa := g.xr f.xa.toNat
  let xm := g.xr f.xm.toNat
  let o := storeOff xa.bits 512
  let (s1, bs, p) := State.loadStore v s w o 512
  let dest := csendTo v w f
  let e : RxLine := { off := o, line := BitVec.ofNat 4096 (leNat bs)
                      poison := p || xa.poison || xm.poison || s1.suspect gi }
  let s2 := s1.each dest (fun s r => s.updGal (galIdx w.ph r) (fun g => { g with rx := g.rx ++ [e] }))
  let s3 := s2.updHall w.ph (fun h => { h with cnt :=
    if f.dir then { h.cnt with corrCcw := satInc h.cnt.corrCcw } else { h.cnt with corrCw := satInc h.cnt.corrCw } })
  s3.inFlight gi (s.now + s.latency w.ph (.csend f))
    (dest.map (fun r => .corridor (galIdx w.ph r)) ++ xInc g f.inc f.xa 512)

/-! ### BAYW and BAYR (05 R217, 08 R329 to R331) -/

/-- The fields of a bay descriptor (05 Table 05.10): port, bay, bay line. -/
def bayDesc (x : Word64) : Nat × Nat × Nat :=
  ((x.extractLsb' 0 5).toNat, (x.extractLsb' 5 7).toNat, (x.extractLsb' 12 5).toNat)

/-- A descriptor that makes no access: an absent port, l above 16, or a bay above 95 (05 R217, 08 R330). Log 30 (DEDUCED). -/
def State.badBay (s : State) (d : Nat × Nat × Nat) : Bool := !s.hasPort d.1 || 16 < d.2.2 || 95 < d.2.1

/-- X[xb] with l advanced by 1 modulo 32 (05 R217). -/
def bayNext (x : Word64) : Word64 :=
  (x &&& ~~~(0x1F#64 <<< 12)) ||| ((x.extractLsb' 12 5 + 1).zeroExtend 64 <<< 12)

/-- The address-register results of a BAYW or BAYR. A bundle field that names one register twice advances it once, by
the address step (05 R200). -/
def bayIncs (g : Gallery) (f : BayF) : List RegWrite :=
  let xb := g.xr f.xb.toNat
  (if f.incb && !(f.inc && f.xa = f.xb) then [.x f.xb { xb with bits := bayNext xb.bits }] else [])
    ++ xInc g f.inc f.xa 512

/-- The bay-descriptor fault (10 Table 10.13, 0x0106). -/
def State.bayFault (s : State) (w : Who) (x : Word64) : State :=
  s.raise (s.galRec w 0x0106 1 false ((x.extractLsb' 0 17).zeroExtend 64))

/-- The key of an arcade stairwell buffer in `Xport.roomAt`. -/
def roomKey (src dst : Nat) : Nat := 512 + src * 16 + dst

/-- The bay that a COPY's line goes to, as port and bay. -/
def StwLine.copyTo (l : StwLine) : Option (Nat × Nat) :=
  match l.dest with
  | .copy p b _ _ _ _ _ => some (p, b)
  | .hall _ _ | .bayw _ _ _ _ _ | .store _ _ _ | .hst _ _ _ | .code _ _ _ | .token _ _ _ _ => none

/-- The relay die that a COPY's line is still to reach (08 R347). -/
def StwLine.relay (l : StwLine) : Option Nat := if l.copyTo.isSome && 4 ≤ l.src then some l.dst else none

/-- Lines between a compute die and an arcade that have not arrived: the arcade stairwell buffer holds 32 (06 Table 06.3). A COPY's
line leaves its bay only as it moves (08 R347). -/
def Xport.between (x : Xport) (src dst : Nat) : Nat :=
  ((x.waiting.filter (fun l => l.relay.isNone) ++ x.flying).filter (fun l => l.src = src && l.dst = dst)).length

def baywReady (s : State) (w : Who) (f : BayF) : Bool :=
  let d := bayDesc ((s.gal (galIdx w.ph w.g)).xr f.xb.toNat).bits
  s.badBay d || decide (s.xport.between (dieOfHall w.ph) (4 + d.1 / 6) < 32)

/-- BAYW: the line goes to the arcade by its stairwell. -/
def opBayw (v s : State) (w : Who) (f : BayF) : State :=
  let gi := galIdx w.ph w.g
  let g := v.gal gi
  let xa := g.xr f.xa.toNat
  let xb := g.xr f.xb.toNat
  let d := bayDesc xb.bits
  let due := s.now + s.latency w.ph (.bayw f)
  if s.badBay d then (s.bayFault w xb.bits).inFlight gi due (bayIncs g f)
  else
    let (s1, bs, p) := State.loadStore v s w (storeOff xa.bits 512) 512
    let l : StwLine := { src := dieOfHall w.ph, dst := 4 + d.1 / 6, sched := true, fails := 0, due := 0
                         line := BitVec.ofNat 4096 (leNat bs)
                         poison := p || xa.poison || xb.poison || s1.suspect gi
                         dest := .bayw gi w.baddr.toNat d.1 d.2.1 d.2.2, at_ := s.now, floor := s.floorOf w.ph due }
    (s1.sendLine l).inFlight gi due (bayIncs g f)

/-- A bay that a RECV, REDUCE or COPY expects delays its reader until the parcel is complete (08 R331). -/
def bayrReady (s : State) (w : Who) (f : BayF) : Bool :=
  let d := bayDesc ((s.gal (galIdx w.ph w.g)).xr f.xb.toNat).bits
  s.badBay d || (!(s.bay (d.1 * 128 + d.2.1)).expect && decide (s.xport.between (4 + d.1 / 6) (dieOfHall w.ph) < 32))

/-- Bay line 16 as bytes 8,192 to 8,255 of the bay image (08 Table 08.5). -/
def Bay.tail (b : Bay) : Line := (b.flags.zeroExtend 4096 <<< 128) ||| b.hdr.zeroExtend 4096

/-- What a bay line reads as: its contents as they stand, zeros where nothing has been written. -/
def Bay.line (b : Bay) (l : Nat) : Line := if l = 16 then b.tail else SMap.get 0 b.lines l

/-- BAYR: the line comes to the gallery by the arcade's stairwell; a store line waits for it. -/
def opBayr (v s : State) (w : Who) (f : BayF) : State :=
  let gi := galIdx w.ph w.g
  let g := v.gal gi
  let xa := g.xr f.xa.toNat
  let xb := g.xr f.xb.toNat
  let d := bayDesc xb.bits
  let o := storeOff xa.bits 512
  let due := s.now + s.latency w.ph (.bayr f)
  if s.badBay d then
    let n := if d.2.2 = 16 then 64 else 512
    ((s.bayFault w xb.bits).putStore w o (zeros n) true).inFlight gi due (bayIncs g f)
  else if offStore o then (s.rangeFault w o).inFlight gi due (bayIncs g f)
  else
    let b := v.bay (d.1 * 128 + d.2.1)
    let l : StwLine := { src := 4 + d.1 / 6, dst := dieOfHall w.ph, sched := true, fails := 0, due := 0
                         line := b.line d.2.2, poison := b.poison.getLsbD d.2.2 || xa.poison || xb.poison
                         dest := .store gi o (d.2.2 = 16), at_ := s.now, floor := s.floorOf w.ph due }
    let s1 := s.sendLine l
    let s2 := s1.updGal gi (fun g => { g with pend := g.pend ++ [o / 512] })
    s2.inFlight gi due (bayIncs g f)

/-! ### Code lines (05 R219, 03 R99) -/

/-- The position of bundle `b` of a stream whose head lies in slot `h` (03 R99, 05 R219). -/
def istorePos (h b : Nat) : Nat := if b < 256 then 1024 + 256 * h + b else (b - 256) % 1024

/-- Whether a check error lies in a position of an instruction store. -/
def inIstore (gi pos : Nat) : UpSite → Bool
  | .istore g p _ => g = gi && p = pos
  | _ => false

/-- Sixteen fetched bundles, from bundle `index` of the stream, enter the running area of a gallery that still runs the
flight; a poisoned line leaves them uncorrectable (05 R219, 03 R93). They are present from this tread, and not before `floor`. -/
def State.deliverCode (s : State) (gi flight index : Nat) (l : Line) (p : Bool) (floor : Nat := 0) : State :=
  let h := s.hall (gi / 16)
  if h.st = .running && h.iss.flight = flight && (s.gal gi).cond != .fenced then
    s.each (List.range 16) (fun s i =>
      let b := index + i
      let pos := istorePos 0 b
      let e : IBundle := { index := b, bits := l.extractLsb' (256 * i) 256, held := true, bad := p, from_ := max s.now floor }
      let s1 := s.updGal gi (fun g => { g with istore := SMap.set {} g.istore pos e })
      { s1 with upsets := s1.upsets.filter (fun u => !inIstore gi pos u.site) })
  else s

/-! ### HBM requests (05 R201, R202, R218, R219) -/

def slotFrame (x : BitVec 128) : Nat := (x.extractLsb' 104 24).toNat
def slotPeriod (x : BitVec 128) : Nat := (x.extractLsb' 92 12).toNat
def slotCount (x : BitVec 128) : Nat := (x.extractLsb' 80 12).toNat + 1
def slotMask (x : BitVec 128) : BitVec 64 := x.extractLsb' 16 64
def slotKind (x : BitVec 128) : Nat := (x.extractLsb' 13 3).toNat
def slotVh (x : BitVec 128) : Nat := (x.extractLsb' 6 6).toNat
def slotG (x : BitVec 128) : Nat := (x.extractLsb' 2 4).toNat


/-- The address-register results of HLD and HST: both registers advance, one named twice advances once (05 R200). -/
def hbmIncs (g : Gallery) (f : HbmF) : List RegWrite :=
  let step := 512 * (f.n1.toNat + 1)
  xInc g f.inc f.xs step ++ (if f.xs = f.xh then [] else xInc g f.inc f.xh step)

/-- A request to a controller, with its number. -/
def State.request (s : State) (stack : Nat) (r : MemReq) : State :=
  s.updMc stack (fun m => { m with reqs := m.reqs ++ [{ r with id := m.nextId }], nextId := m.nextId + 1 })

/-- The part-local offset in an address register: 48 bits, aligned to a line. -/
def hbmOff (x : Word64) : Nat := let o := x.toNat % 2 ^ 48; o - o % 512

/-- The window-range or slot-mismatch fault of an operation that no controller can serve (05 R201, R202). -/
def State.slotMismatch (s : State) (w : Who) (win off : Nat) : State :=
  s.raise (if win = 0 then s.galRec w 0x0102 1 false (BitVec.ofNat 64 off)
    else s.galRec w 0x0103 1 false (BitVec.ofNat 64 (off + win * 2 ^ 48)))

/-- Repetitions of the entries of a flight's slot table for a kind and a requester that are still to come (06 R253). -/
def McFlight.slotsLeft (f : McFlight) (kind vh g : Nat) : Nat :=
  f.segs.foldl (fun n sg => (sg.ents.zip sg.prog).foldl (fun n (x, done) =>
    if slotKind x = kind && slotVh x = vh && slotG x = g then n + (slotCount x - done) else n) n) 0

/-- Whether a request is of an entry's kind: 1 for reads, 2 for writes (06 Table 06.5). -/
def MemReq.isKind (r : MemReq) (kind : Nat) : Bool := decide ((kind = 2) = (r.kind = .hst))

/-- Controller `c` holds a reserved slot of the requester that no earlier request takes (06 R256). -/
def State.slotOn (s : State) (kind vh g flight c : Nat) : Bool :=
  let m := s.mc c
  let left := (m.flights.filter (fun f => f.flight = flight)).foldl (fun n f => n + f.slotsLeft kind vh g) 0
  decide ((m.reqs.filter (fun r => r.isKind kind && r.vh = vh && r.gi % 16 = g && r.flight = flight)).length < left)

/-- The controller in whose reserved slot an operation is served: that of its address where a slot is reserved there, else one that
holds a slot of the requester, which refuses it (05 R201); with none reserved anywhere, that of its address. Log 95 (DESIGN
CHOICE). -/
def State.route (s : State) (w : Who) (kind off : Nat) : Option Nat :=
  let on := s.slotOn kind (s.hall w.ph).vh w.g w.flight.toNat
  let a := stackOf off
  let own := if s.hasStack a then some a else none
  if s.hasStack a && on a then own
  else (oneOf [95, s.now, off] ((List.range (stacksOf s.cfg.grade)).filter on)).or own

/-- HLD: a request that its reserved slot serves; the store lines wait for the delivery (06 R252). Lines outside the store are not
written, with one record (05 R199). -/
def opHld (v s : State) (w : Who) (f : HbmF) : State :=
  let gi := galIdx w.ph w.g
  let g := v.gal gi
  let xs := g.xr f.xs.toNat
  let xh := g.xr f.xh.toNat
  let n := f.n1.toNat + 1
  let off := hbmOff xh.bits
  let o := storeOff xs.bits 512
  let ls := (List.range n).map (fun i => (o / 512 + i) % 4096)
  let due := s.now + s.latency w.ph (.hld f)
  let s1 := match ls.find? (fun l => 2560 ≤ l) with
    | none => s
    | some l => s.rangeFault w (l * 512)
  match s.route w 1 off with
  | some c =>
    let s2 := s1.request c
      { id := 0, kind := .hld, gi, vh := (s.hall w.ph).vh, flight := w.flight.toNat, baddr := w.baddr.toNat, off
        store := o, n, win := f.win.toNat, at_ := s.now, poison := xs.poison || xh.poison || s.suspect gi, missing := 0
        lines := [], floor := s.floorOf w.ph due }
    (s2.updGal gi (fun g => { g with pend := g.pend ++ ls })).inFlight gi due (hbmIncs g f)
  | none =>
    ((s1.slotMismatch w f.win.toNat off).each (ls.filter (fun l => l < 2560)) (fun s l => s.putLine w (l * 512) 0 true)).inFlight
      gi due (hbmIncs g f)

/-- The lines of scheduled writes that a controller holds: its write buffer has room for 256 (06 R245). -/
def MemCtl.held (m : MemCtl) : Nat := (m.reqs.filter (fun r => r.isKind 2)).foldl (fun n r => n + r.n) 0

/-- The write buffer has room for the lines of an HST (02 R44). -/
def hstReady (s : State) (w : Who) (f : HbmF) : Bool :=
  match s.route w 2 (hbmOff ((s.gal (galIdx w.ph w.g)).xr f.xh.toNat).bits) with
  | some c => decide ((s.mc c).held + f.n1.toNat + 1 ≤ 256)
  | none => true

/-- HST: the lines as they stand at issue go to the controller; to a stack on another die by stairwell (06 Table 06.2). Lines outside
the store are zeros marked poisoned, with one record (05 R199). -/
def opHst (v s : State) (w : Who) (f : HbmF) : State :=
  let gi := galIdx w.ph w.g
  let g := v.gal gi
  let xs := g.xr f.xs.toNat
  let xh := g.xr f.xh.toNat
  let n := f.n1.toNat + 1
  let off := hbmOff xh.bits
  let o := storeOff xs.bits 512
  let due := s.now + s.latency w.ph (.hst f)
  let pa := xs.poison || xh.poison || s.suspect gi
  let at_ := fun (i : Nat) => (o + 512 * i) % 2 ^ 21
  let s0 := match (List.range n).find? (fun i => offStore (at_ i)) with
    | none => s
    | some i => s.rangeFault w (at_ i)
  let (s1, lines) := (List.range n).foldl (fun (acc : State × List (Line × Bool)) i =>
    if offStore (at_ i) then (acc.1, acc.2 ++ [(0, true)])
    else
      let r := State.loadStore v acc.1 w (at_ i) 512
      (r.1, acc.2 ++ [(BitVec.ofNat 4096 (leNat r.2.1), r.2.2 || pa)])) (s0, [])
  match s.route w 2 off with
  | some k =>
    let far := decide (dieOfStack k ≠ dieOfHall w.ph)
    let id := (s1.mc k).nextId
    let s2 := s1.request k
      { id := 0, kind := .hst, gi, vh := (s.hall w.ph).vh, flight := w.flight.toNat, baddr := w.baddr.toNat, off
        store := o, n, win := f.win.toNat, at_ := s.now, poison := pa, missing := if far then n else 0, lines }
    let mk := fun (e : (Line × Bool) × Nat) =>
      let l : StwLine := { src := dieOfHall w.ph, dst := dieOfStack k, sched := true, fails := 0, due := 0, line := e.1.1
                           poison := e.1.2, dest := .hst k id e.2, at_ := s.now }
      l
    (if far then s2.each lines.zipIdx (fun s e => s.sendLine (mk e)) else s2).inFlight gi due (hbmIncs g f)
  | none => (s1.slotMismatch w f.win.toNat off).inFlight gi due (hbmIncs g f)

/-- CFETCH: the next bundles of the stream not yet fetched (05 R219); lines of an offset that no controller serves come poisoned. -/
def opCfetch (v s : State) (w : Who) (f : CfetchF) : State :=
  let gi := galIdx w.ph w.g
  let g := v.gal gi
  let xh := g.xr f.xh.toNat
  let n := f.n1.toNat + 1
  let off := hbmOff xh.bits
  let due := s.now + s.latency w.ph (.cfetch f)
  let inc := xInc g f.inc f.xh (512 * n)
  let next := fun (s : State) => s.updGal gi (fun x => { x with fetched := g.fetched + 16 * n })
  match s.route w 1 off with
  | some c =>
    let s1 := s.request c
      { id := 0, kind := .cfetch, gi, vh := (s.hall w.ph).vh, flight := w.flight.toNat, baddr := w.baddr.toNat, off
        store := g.fetched, n, win := 0, at_ := s.now, poison := xh.poison, missing := 0, lines := [], floor := s.floorOf w.ph due }
    (next s1).inFlight gi due inc
  | none =>
    ((next (s.slotMismatch w 0 off)).each (List.range n)
      (fun s i => s.deliverCode gi w.flight.toNat (g.fetched + 16 * i) 0 true)).inFlight gi due inc

end Sys2Proof.Machine
end

