-- ==== Sys2Proof/Machine/Bays.lean ====
section
/-! DEFINITION. Bays (08 R327 to R331), the arcade detail and the faults of the arcade's checks (08 R345, 10 R437), and
credits returned by a freed bay (08 R343, 09 R381).
-/
namespace Sys2Proof.Machine

/-- The arcade detail (10 R437). -/
def arcDetail (p h n bay : Nat) (pid : Word) : Word64 :=
  pid ++ BitVec.ofNat 32 (p + 32 * (h % 2) + 64 * (n % 64) + 4096 * (bay % 128))

/-- A bit of 17 set or cleared. -/
def setBit17 (x : BitVec 17) (l : Nat) (p : Bool) : BitVec 17 :=
  if p then x ||| BitVec.ofNat 17 (2 ^ l) else x &&& ~~~(BitVec.ofNat 17 (2 ^ l))

/-- The bytes 0 to 5 and 8 to 13 of a header (08 R330). -/
def hdrMask : BitVec 128 := 0x0000FFFFFFFFFFFF0000FFFFFFFFFFFF#128

/-- A payload line written: it is present and carries the given poison (08 R331). -/
def Bay.put (b : Bay) (l : Nat) (x : Line) (p : Bool) : Bay :=
  { b with lines := SMap.set 0 b.lines l x, present := setBit17 b.present l true, poison := setBit17 b.poison l p }

/-- Bay line 16 written by a BAYW: header bytes 0 to 5 and 8 to 13 only (08 R330). -/
def Bay.putHeader (b : Bay) (x : Line) (p : Bool) : Bay :=
  { b with
    hdr := (b.hdr &&& ~~~hdrMask) ||| (x.extractLsb' 0 128 &&& hdrMask)
    present := setBit17 b.present 16 true
    poison := setBit17 b.poison 16 p }

/-- Bay line 16 written whole, as a COPY moves it. -/
def Bay.putTail (b : Bay) (x : Line) (p : Bool) : Bay :=
  { b with
    hdr := x.extractLsb' 0 128, flags := x.extractLsb' 128 8
    present := setBit17 b.present 16 true, poison := setBit17 b.poison 16 p }

/-- A line of a COPY written to bay B. -/
def Bay.copyIn (b : Bay) (l : Nat) (x : Line) (p : Bool) : Bay := if l = 16 then b.putTail x p else b.put l x p

/-- The parcel that a bay was expected to hold is there. -/
def Bay.arrive (b : Bay) (t : Nat) : Bay := if b.expect then { b with expect := false, doneAt := t } else b

/-- Whether a bay lies in the share of a context (08 R352). -/
def Ctx.ownsBay (c : Ctx) (b : Nat) : Bool :=
  if b < 96 then c.bayLo.toNat ≤ b && b ≤ c.bayHi.toNat else 96 ≤ b && b < 104 && c.cmask.getLsbD (b - 96)

/-- The enabled contexts of a port, as their keys. -/
def State.ctxsOf (s : State) (p : Nat) : List Nat :=
  (SMap.keys s.ctxs).filter (fun c => c / 64 = p && (s.ctx c).en)

/-- The enabled context in whose share a bay lies. -/
def State.ownerCtx (s : State) (p b : Nat) : Option Nat :=
  (s.ctxsOf (s.lowPort p)).find? (fun c => (s.ctx c).ownsBay b)

/-- The link of a context. -/
def State.ctxLink (s : State) (c : Nat) : Nat := 2 * (c / 64) + (if (s.ctx c).half then 1 else 0)

/-- A fault of the arcade's checks: a record with the arcade detail, class bit 1 (08 R345). -/
def State.arcFault (s : State) (cause : BitVec 16) (p h n bay : Nat) (pid : Word) (slice : Option Nat) : State :=
  s.raise (FRec.schedule cause (srcArc (p / 6)) slice (arcDetail p h n bay pid))

/-- The same for a context. -/
def State.ctxFault (s : State) (cause : BitVec 16) (c bay : Nat) (pid : Word) : State :=
  s.arcFault cause (c / 64) (if (s.ctx c).half then 1 else 0) (c % 64) bay pid (some (s.ctx c).slice.toNat)

/-- A credit of class `cls` (0 S, 1 C token records) returned to the far end of context `c`: the count of freed bays
rises and its new value waits for four frames (09 R379, R381). Log 35 (DEDUCED). -/
def State.returnCredit (s : State) (c : Nat) (isS : Bool) : State :=
  let x := s.ctx c
  let v := (if isS then x.sFreed + 1 else x.cFreed + 1) % 32
  let s1 := s.updCtx c (fun x => if isS then { x with sFreed := v } else { x with cFreed := v })
  s1.updLink (s1.ctxLink c) (fun l => { l with side := { l.side with
    creds := l.side.creds ++ [{ cls := if isS then 0 else 1, ctx := c % 64, value := v, left := 4 }] } })

/-- Bay `b` of the pool of port `p` freed: it reads as zeros with no poison and no flags (08 R331), and a bay that was
received into returns its credit. -/
def State.freeBay (s : State) (p b : Nat) : State :=
  let k := p * 128 + b
  let o := (s.bay k).owner
  let s1 := s.updBay k (fun _ => {})
  match o with
  | none => s1
  | some c => s1.returnCredit c (b < 96)

/-- A transmission or copy has left a bay: the last one frees it when a release waits (08 R337, R346). -/
def State.leaveBay (s : State) (p b : Nat) (rel : Bool) : State :=
  let k := p * 128 + b
  let s1 := s.updBay k (fun x => { x with users := x.users - 1, rel := x.rel || rel })
  if (s1.bay k).users = 0 && (s1.bay k).rel then s1.freeBay p b else s1

/-- A BAYW reaches its bay: a line already present is left as it is, with a fault (08 R331, Table 08.9). -/
def State.bayWrite (s : State) (gi baddr p b l : Nat) (x : Line) (poison : Bool) : State :=
  let k := p * 128 + b
  let y := s.bay k
  if y.present.getLsbD l then
    let sl := (s.hall (gi / 16)).mapped
    let n := (s.ownerCtx p b).getD 0
    s.raise
      { cause := 0x0116, src := srcArc (p / 6), ph := BitVec.ofNat 8 (gi / 16), g := BitVec.ofNat 8 (gi % 16), slice := sl
        errs := sl.toList, cls := 1, flight := BitVec.ofNat 16 (s.hall (gi / 16)).iss.flight
        baddr := BitVec.ofNat 32 baddr
        detail := arcDetail p (if (s.ctx n).half then 1 else 0) n b (y.hdr.extractLsb' 64 32) }
  else s.updBay k (fun y => if l = 16 then y.putHeader x poison else y.put l x poison)

end Sys2Proof.Machine
end

