-- ==== Sys2Proof/Machine/Control.lean ====
section
/-! DEFINITION. The control slot but LAND (05 Table 05.11, R194, R209, R213, R220, R221): address and predicate
arithmetic, loops, tokens and branch values.
-/
namespace Sys2Proof.Machine

/-- Results at completion of an operation that writes registers only. -/
def State.results (s : State) (w : Who) (op : GOp) (ws : List RegWrite) : State :=
  s.inFlight (galIdx w.ph w.g) (s.now + s.latency w.ph op) ws

/-- XSET: a 16-bit chunk; the other bits are kept, with their poison, when keep is 1. -/
def opXset (v s : State) (w : Who) (f : XsetF) : State :=
  let x := (v.gal (galIdx w.ph w.g)).xr f.xd.toNat
  let sh := 16 * f.chunk.toNat
  let imm : Word64 := f.imm.zeroExtend 64 <<< sh
  let c : XCell := if f.keep then { bits := (x.bits &&& ~~~(0xFFFF#64 <<< sh)) ||| imm, poison := x.poison }
    else { bits := imm, poison := false }
  s.results w (.xset f) [.x f.xd c]

/-- XADDI. -/
def opXaddi (v s : State) (w : Who) (f : XaddiF) : State :=
  let a := (v.gal (galIdx w.ph w.g)).xr f.xa.toNat
  s.results w (.xaddi f) [.x f.xd { bits := a.bits + f.imm.signExtend 64, poison := a.poison }]

/-- Two-operand address arithmetic, modulo 2^64. -/
def x3Val (o : XOp) (a b : Word64) : Word64 :=
  match o with
  | .add => a + b
  | .sub => a - b
  | .and => a &&& b
  | .mul => a * b
  | .minu => if a.ult b then a else b

/-- XADD, XSUB, XAND, XMUL and XMINU. -/
def opX3 (v s : State) (w : Who) (o : XOp) (f : X3F) : State :=
  let g := v.gal (galIdx w.ph w.g)
  let a := g.xr f.xa.toNat
  let b := g.xr f.xb.toNat
  s.results w (.x3 o f) [.x f.xd { bits := x3Val o a.bits b.bits, poison := a.poison || b.poison }]

/-- XSHLI. -/
def opXshli (v s : State) (w : Who) (f : XshF) : State :=
  let a := (v.gal (galIdx w.ph w.g)).xr f.xa.toNat
  s.results w (.xshli f) [.x f.xd { bits := a.bits <<< f.sh.toNat, poison := a.poison }]

/-- XSHRI. -/
def opXshri (v s : State) (w : Who) (f : XshF) : State :=
  let a := (v.gal (galIdx w.ph w.g)).xr f.xa.toNat
  s.results w (.xshri f) [.x f.xd { bits := a.bits >>> f.sh.toNat, poison := a.poison }]

/-- XMOVV: one lane, zero-extended. -/
def opXmovv (v s : State) (w : Who) (f : XmovvF) : State :=
  let a := (v.gal (galIdx w.ph w.g)).vr f.va.toNat
  s.results w (.xmovv f)
    [.x f.xd { bits := (a.lane f.lane.toNat).zeroExtend 64, poison := a.poison.getLsbD f.lane.toNat }]

/-- XLC: the iteration index of an open level, 0 where it is not open. Level 0 is the outermost. -/
def opXlc (v s : State) (w : Who) (f : XlcF) : State :=
  let l := ((v.gal (galIdx w.ph w.g)).loops.getD f.level.toNat {}).iter
  s.results w (.xlc f) [.x f.xd { bits := BitVec.ofNat 64 l, poison := false }]

/-- PSETN. -/
def opPsetn (_v s : State) (w : Who) (f : PsetnF) : State :=
  s.results w (.psetn f) [.p f.pd { bits := BitVec.ofNat 64 (2 ^ f.n.toNat - 1), poison := false }]

/-- PAND and POR (05 R213). -/
def opP2 (v s : State) (w : Who) (isOr : Bool) (f : P3F) : State :=
  let g := v.gal (galIdx w.ph w.g)
  let a := g.pr f.pa.toNat
  let b := g.pr f.pb.toNat
  s.results w (if isOr then .por f else .pand f)
    [.p f.pd { bits := if isOr then a.bits ||| b.bits else a.bits &&& b.bits, poison := a.poison || b.poison }]

/-- PNOT. -/
def opPnot (v s : State) (w : Who) (f : P3F) : State :=
  let a := (v.gal (galIdx w.ph w.g)).pr f.pa.toNat
  s.results w (.pnot f) [.p f.pd { bits := ~~~a.bits, poison := a.poison }]

/-- LOOP opens a level whose body starts at bundle `start` (05 R194). -/
def opLoop (s : State) (w : Who) (c1 : BitVec 16) (start : Nat) : State :=
  s.updGal (galIdx w.ph w.g) (fun g => { g with loops := g.loops ++ [{ trip := c1.toNat + 1, iter := 0, start }] })

/-! ### Tokens and branch values (05 R220, R221; 08 R356) -/

/-- The ordinal of the first landing of a slice to start from now on (10 R426: the first is 0). -/
def Slice.nextOrd (x : Slice) : Word := if x.started then x.land.ord + 1 else x.land.ord

/-- A token record (08 Table 08.10). -/
def tokenRecord (ord : Word) (flight : BitVec 12) (branch : Bool) (value : BitVec 16) : Word64 :=
  ord ++ flight ++ (if branch then 1#2 else 0#2) ++ 0#2 ++ value

/-- A record of gallery `gi` placed in a port's outbox of 16; a full one drops it with a record of cause 0x0109 (08 R345, R356). -/
def State.toOutbox (s : State) (gi baddr p : Nat) (r : BitVec 64) : State :=
  let q := s.lowPort p
  if (s.port q).outbox.length < 16 then s.updPort q (fun x => { x with outbox := x.outbox ++ [r] })
  else
    let w : Who := { ph := gi / 16, g := gi % 16, flight := BitVec.ofNat 16 (s.hall (gi / 16)).iss.flight
                     baddr := BitVec.ofNat 32 baddr }
    s.raise (s.galRec w 0x0109 1 false
      (r.extractLsb' 32 32 ++ (2 + 4 * (r.extractLsb' 20 12).zeroExtend 32 : Word)))

/-- A record goes to the arcade of a port as a line of the gallery's die (06 Table 06.2). -/
def State.sendRecord (s : State) (w : Who) (p due : Nat) (r : BitVec 64) : State :=
  s.sendLine
    { src := dieOfHall w.ph, dst := 4 + p / 6, sched := true, fails := 0, due := 0, line := r.zeroExtend 4096, poison := false
      dest := .token (galIdx w.ph w.g) w.baddr.toNat p r, at_ := s.now, floor := s.floorOf w.ph due }

/-- The stairwell buffer to the arcade has room for the record of a TOKEN or BVAL with fab = 1 (06 R245). -/
def recordReady (s : State) (w : Who) (fab : Bool) (p : Nat) : Bool :=
  !fab || decide (s.xport.between (dieOfHall w.ph) (4 + p / 6) < 32)

/-- The slice of a hall, for the ordinals its operations name. -/
def State.hallSlice (s : State) (ph : Nat) : Nat := ((s.hall ph).mapped).getD 0xFF

/-- TOKEN (05 R220): the token is on its way to the stair controllers, or its record to the outbox of a port. -/
def opToken (s : State) (w : Who) (f : TokenF) : State :=
  let k := s.hallSlice w.ph
  let ord := (s.sl k).nextOrd + f.delta.zeroExtend 32
  let due := s.now + s.latency w.ph (.token f)
  if f.fab then s.sendRecord w f.port.toNat due (tokenRecord ord f.flight false 0)
  else
    let t : Token := { branch := false, flight := f.flight.toNat, ord, value := 0, slice := BitVec.ofNat 8 k, due
                       floor := (s.hall w.ph).reg.asA0 }
    { s with stair := { s.stair with transit := s.stair.transit ++ [t] } }

/-- BVAL (05 R221). -/
def opBval (v s : State) (w : Who) (f : BvalF) : State :=
  let k := s.hallSlice w.ph
  let ord := (s.sl k).nextOrd + f.delta.zeroExtend 32
  let x : BitVec 16 := ((v.gal (galIdx w.ph w.g)).xr f.xa.toNat).bits.truncate 16
  let due := s.now + s.latency w.ph (.bval f)
  if f.fab then s.sendRecord w f.port.toNat due (tokenRecord ord 0 true x)
  else
    let t : Token := { branch := true, flight := 0, ord, value := x, slice := BitVec.ofNat 8 k, due
                       floor := (s.hall w.ph).reg.asA0 }
    { s with stair := { s.stair with transit := s.stair.transit ++ [t] } }

end Sys2Proof.Machine
end

