-- ==== Sys2Proof/Machine/Landing.lean ====
section
/-! DEFINITION. The start of a landing: what every agent of it spends at its start tread A (02 R55 to R62, 06 R263,
13 R529), and LAND (05 R222). All treads are slice treads.
-/
namespace Sys2Proof.Machine

/-- What opens a landing: its start tread, its width, D − A, and its flags. See 02 R59. -/
structure LandShape where
  a : Word64
  w : Nat
  d : Nat
  commit : Bool := false
  quiesce : Bool := false
  branch : Bool := false
  last : Bool := false
  idle : Bool := false

/-- The landing table entry of a flight at landing index `i`. -/
def Flight.ent (f : Flight) (i : Nat) : LandEnt := f.lands.getD i { a := 0, w4 := 0, d4 := 0, flags := 0, res := false }

/-- The landing index that a running flight takes at the present landing. -/
def Run.here (r : Run) : Nat := r.idx + 1

/-- The landing that the table of a running flight places next: it stands at the base tread plus the entry's A (10 R423). -/
def Flight.shape (f : Flight) : Option LandShape :=
  f.run.map (fun r =>
    let e := f.ent r.here
    { a := r.base + e.a.signExtend 64, w := 4 * (e.w4.toNat + 1), d := 4 * e.d4.toNat, commit := e.flags.getLsbD 0
      quiesce := e.flags.getLsbD 1, branch := e.flags.getLsbD 2, last := e.flags.getLsbD 3 })

/-- The flights of slice `k` that run on the part. -/
def State.flightsRunning (s : State) (k : Nat) : List (Nat × Flight) :=
  s.runningFlights.filter (fun e => e.2.slice.toNat = k)

/-- Whether controller `c` is an agent of the landings of slice `k`: its slot table holds entries of a flight of the
slice that runs on the part (02 R60). Those of a flight that launches are added at its launch. -/
def State.mcAgent (s : State) (k c : Nat) : Bool :=
  (s.mc c).flights.any (fun f => f.slice = k && f.segs.any (fun x => !x.ents.isEmpty))

/-- The controllers that are agents of a landing. -/
def State.mcAgents (s : State) (k : Nat) : List Nat :=
  (List.range (stacksOf s.cfg.grade)).filter (fun c => s.mcAgent k c)

/-- The halls that are agents: mapped to the slice, and idle or running (02 R60, 03 Table 03.1). -/
def State.hallAgents (s : State) (k : Nat) : List Nat :=
  (s.hallsOf k).filter (fun ph => (s.hall ph).st = .idle || (s.hall ph).st = .running)

/-- The contexts that carry the slice. -/
def State.ctxAgents (s : State) (k : Nat) : List Nat :=
  (SMap.keys s.ctxs).filter (fun c => (s.ctx c).en && (s.ctx c).slice.toNat = k)

/-- Agents of the item map: halls by pH, controllers from 64. -/
def mcItem (c : Nat) : Nat := 64 + c

/-- An item of `n` treads spent on agent `a`; the record keeps the largest sum on one agent (02 R61). -/
def Landing.spend (l : Landing) (a n : Nat) : Landing :=
  let m := SMap.upd 0 l.items a (· + n)
  { l with items := m, others := max l.others (SMap.get 0 m a) }

/-- The landing record flag `b` set (02 Table 02.8). -/
def Landing.flag (l : Landing) (b : Nat) : Landing := { l with flags := l.flags ||| BitVec.ofNat 16 (2 ^ b) }

/-- The landing of slice `k` changed. -/
def State.updLand (s : State) (k : Nat) (f : Landing → Landing) : State :=
  s.updSl k (fun x => { x with land := f x.land })

/-- The largest of refresh debts, 0 when none is above 0. -/
def maxDebt (d : SMap Int) : Nat := d.foldl (fun a e => max a e.2.toNat) 0

/-- The treads of a forced refresh of debts `d` (06 R263): 32 for each unit of the largest, when that is 8 or more. -/
def refreshCost (d : SMap Int) : Nat := if 8 ≤ maxDebt d then 32 * maxDebt d else 0

/-- The units of forced refresh that debts `d` call for, made: each debt above 0 of `d` is paid, to no less than −8 (06 R262). -/
def payDebts (d now : SMap Int) : SMap Int :=
  d.foldl (fun m e => if 0 < e.2 then SMap.upd 0 m e.1 (fun x => max (-8) (x - e.2)) else m) now

/-- Forced refresh of controller `c` for the debts `d` that it had at A (06 R263). -/
def State.forcedRefresh (s : State) (k c : Nat) (d : SMap Int) : State :=
  if 8 ≤ maxDebt d then
    (s.updMc c (fun m => { m with forced := satInc m.forced, debt := payDebts d m.debt })).updLand k
      (fun l => (l.spend (mcItem c) (refreshCost d)).flag 8)
  else s

/-- The temperature excess of a hall over its limits, none when no limit is reached (13 R529). `recv` keeps a hall
that receives requests in until both lie more than 2 °C below. -/
def State.thermExcess (s : State) (ph : Nat) : Option Nat :=
  let h := s.hall ph
  let t := h.pwr.temp.toNat
  let thr := s.pwr.throttle.toNat
  let hthr := s.pwr.hbmThr.toNat
  let st := ((List.range (stacksOf s.cfg.grade)).filter (fun c => dieOfStack c = dieOfHall ph)).foldl
    (fun a c => max a (s.mc c).temp) 0
  if thr ≤ t ∨ hthr ≤ st then some (max (t - thr) (st - hthr))
  else if h.pwr.receiving && !(decide (t + 2 < thr) && decide (st + 2 < hthr)) then some 0
  else none

/-- Thermal idle requested for a hall at A (13 R529, Table 13.9). -/
def State.thermalIdle (s : State) (k ph : Nat) : State :=
  match s.thermExcess ph with
  | none => s.updHall ph (fun h => { h with pwr := { h.pwr with receiving := false } })
  | some x =>
    let n := min 8192 (256 * (x + 1))
    (s.updHall ph (fun h => { h with pwr := { h.pwr with receiving := true }
                                     cnt := { h.cnt with thermIdle := satAdd h.cnt.thermIdle n } })).updLand k
      (fun l => (l.spend ph n).flag 9)

/-- A power-manager threshold written before takes effect at a landing (13 R540). -/
def State.takeThresholds (s : State) : State :=
  match s.pwr.thermPend with
  | none => s
  | some (a, b) => { s with pwr := { s.pwr with throttle := a, hbmThr := b, thermPend := none } }

/-- FLT_CFG and scrub settings written before take effect at a landing (12 R507). -/
def State.takeFltCfg (s : State) : State :=
  match s.flt.cfgPend with
  | none => s
  | some (a, b, c) => { s with flt := { s.flt with storm := a, walkCe := b, repLim := c, cfgPend := none } }

/-- New scrub settings of halls and controllers take effect at the next landing that starts on the part (06, after
Table 06.13). Log 84 (DEDUCED). -/
def State.takeScrubs (s : State) : State :=
  let s1 := s.each (SMap.keys s.halls) (fun s ph => s.updHall ph (fun h => match h.reg.scrubPend with
    | none => h
    | some (e, i) => { h with reg := { h.reg with scrubEn := e, scrubInt := i, scrubPend := none } }))
  s1.each (SMap.keys s1.mcs) (fun s c => s.updMc c (fun m => match m.scrubPend with
    | none => m
    | some (e, i) => { m with scrubEn := e, scrubInt := i, scrubPend := none }))

/-- A landing of slice `k` starts at A. Every agent that has nothing left to issue stops with its lag; controllers and
contexts bring theirs; a running hall brings its own when it reaches its LAND. What the other controllers have at A is kept for those
that a launch makes agents (02 R60). -/
def State.startLanding (s : State) (k : Nat) (x : LandShape) : State :=
  let old := s.sl k
  let ms := s.mcAgents k
  let cs := s.ctxAgents k
  let mcLag := ms.foldl (fun a c => max a (s.mc c).lagCur.toNat) 0
  let portLag := cs.foldl (fun a c => max a (s.ctx c).lagCur.toNat) 0
  let others := (List.range (stacksOf s.cfg.grade)).filter (fun c => !ms.contains c)
  let ord := old.nextOrd
  let land : Landing :=
    { ord, a := x.a, w := x.w, d := x.d, commit := x.commit, quiesce := x.quiesce, branch := x.branch
      last := x.last, idle := x.idle, mcLag, portLag, stretches := old.land.stretches
      holdPend := old.err.holdNext.isSome || (old.err.holdCommit && x.commit) || old.marks.contains ord
      holdOrd := old.err.holdNext.getD ord
      mcAt := others.map (fun c => (c, (s.mc c).lagCur.toNat, (s.mc c).debt))
      flags := (if old.err.holdNext.isSome then 0x0040#16 else 0) }
  let s1 := s.takeThresholds.takeFltCfg.takeScrubs.updSl k (fun y =>
    { y with land, phase := .landing, started := true
             err := { y.err with holdNext := none, holdCommit := y.err.holdCommit && !x.commit } })
  let s2 := s1.each ms (fun s c =>
    (s.updMc c (fun m => { m with arrLag := m.lagCur.toNat, stopped := true })).forcedRefresh k c (s.mc c).debt)
  let s3 := s2.each cs (fun s c => s.updCtx c (fun x => { x with arrLag := x.lagCur.toNat }))
  s3.each (s.hallAgents k) (fun s ph => s.thermalIdle k ph)

/-- A hall reaches its LAND: it stops with its arrival lag (02 R60, Table 02.7). -/
def State.hallArrives (s : State) (k ph : Nat) : State :=
  let lag := (s.hall ph).iss.lag
  let s1 := s.updHall ph (fun h => { h with iss := { h.iss with arrLag := lag, stopped := true } })
  s1.updLand k (fun l =>
    if l.hallLag < lag ∨ l.hallPh = 0xFF then { l with hallLag := lag, hallPh := ph }
    else if l.hallLag = lag ∧ ph < l.hallPh then { l with hallPh := ph } else l)

/-- LAND (05 R222, R223): the first hall to issue it opens the landing, which stands where the landing table of the hall's flight
places it (10 R423); without a table its start tread is the bundle's scheduled tread. Every hall that issues it stops until the
landing ends. Log 83 (DEDUCED). -/
def opLand (s : State) (w : Who) (f : LandF) : State :=
  match (s.hall w.ph).mapped with
  | none => s
  | some k =>
    let own : LandShape := { a := (s.hall w.ph).iss.sched, w := 4 * (f.w4.toNat + 1), d := 4 * f.d4.toNat
                             commit := f.commit, quiesce := f.quiesce, branch := f.branch, last := f.last }
    let x := ((s.flight (s.hall w.ph).iss.flight).bind Flight.shape).getD own
    let open_ := decide ((s.sl k).phase ≠ .running) && decide ((s.sl k).phase ≠ .idle)
    let s1 := if open_ then s else s.startLanding k x
    s1.hallArrives k w.ph

end Sys2Proof.Machine
end

