-- ==== Sys2Proof/Machine/Gallery.lean ====
section
/-! DEFINITION. Issue and completion of one gallery operation (02 Table 02.1, 05 R186 to R191): when it can issue, what
it does, and the 84 commands that are operations of the gallery instruction set.
-/
namespace Sys2Proof.Machine

/-! ### Completion (05 R186, 03 R121) -/

/-- A result of a suspect gallery carries poison whatever its inputs (03 R121). -/
def RegWrite.poisoned : RegWrite → RegWrite
  | .v r c => .v r { c with poison := BitVec.allOnes 64 }
  | .x r c => .x r { c with poison := true }
  | .p r c => .p r { c with poison := true }
  | .f r c => .f r { c with poison := true }
  | .bank r b => .bank r (b.poisonAll true)
  | .shadow t => .shadow { t with poison := true }
  | .corridor gi => .corridor gi
  | .present k => .present k

/-- The oldest line of a receive buffer written to the store through port T, poisoned where the receiver is suspect (03 R106,
R121; 05 R215). The entry is free, and the line there, from the tread that port T gives it. -/
def State.drainRx (s : State) (gi : Nat) : State :=
  match (s.gal gi).rx with
  | [] => s
  | e :: rest =>
    let s1 := s.updGal gi (fun g => { g with rx := rest })
    if offStore e.off || (s1.gal gi).cond = .fenced then s1
    else
      let (s2, t) := s1.portT gi
      (s2.updGal gi (fun g => { g with
          rxFreed := t :: g.rxFreed.filter (fun x => s.now ≤ x), landAt := SMap.set 0 g.landAt (e.off / 512) t })).storeWrite
        gi e.off (bvBytes 512 e.line) (e.poison || s.suspect gi)

/-- The first entry of a buffer that is not present yet becomes present. -/
def markPresent (t : Nat) : List BufEnt → List BufEnt
  | [] => []
  | e :: l => if t < e.from_ then { e with from_ := t } :: l else e :: markPresent t l

/-- A register of a gallery last written at TREAD `t`. -/
def Gallery.doneReg (g : Gallery) (r : Reg) (t : Nat) : Gallery := { g with doneAt := SMap.set 0 g.doneAt r.code t }

/-- One result written. -/
def State.applyWrite (s : State) (gi : Nat) (rw : RegWrite) : State :=
  match if s.suspect gi then rw.poisoned else rw with
  | .v r c => s.updGal gi (fun g => (g.setV r.toNat c).doneReg (.v r.toNat) s.now)
  | .x r c => s.updGal gi (fun g => (g.setX r.toNat c).doneReg (.x r.toNat) s.now)
  | .p r c => s.updGal gi (fun g => (g.setP r.toNat c).doneReg (.p r.toNat) s.now)
  | .f r c => s.updGal gi (fun g => (g.setF r.toNat c).doneReg (.f r.toNat) s.now)
  | .bank r b => s.updGal gi (fun g => (g.setBank r.toNat b).doneReg (.bank r.toNat) s.now)
  | .shadow t => s.updGal gi (fun g => ({ g with shadow := t } : Gallery).doneReg .shadow s.now)
  | .corridor r => s.drainRx r
  | .present k =>
    { s with xport := { s.xport with alcove := SMap.set [] s.xport.alcove k (markPresent s.now (s.xport.alc k)) } }

/-- The results of one operation written, in order. -/
def State.applyWrites (s : State) (gi : Nat) (ws : List RegWrite) : State := s.each ws (fun s rw => s.applyWrite gi rw)

/-- The tread before which an operation in flight on a gallery does not complete: its budget in the as-A0 mode (05 R228). -/
def State.doneFrom (s : State) (gi : Nat) (o : InFlight) : Nat := s.floorOf (gi / 16) o.due

/-- The operations in flight that write a register of the list complete. Log 14 (DEDUCED). -/
def State.settle (s0 : State) (gi : Nat) (rs : List Reg) : State :=
  let l := (s0.gal gi).inflight
  let s := s0.waitUntil ((l.filter (fun o => o.blocks rs)).foldl (fun t o => max t (s0.doneFrom gi o)) 0)
  let s1 := s.updGal gi (fun g => { g with inflight := l.filter (fun o => !o.blocks rs) })
  s1.each (l.filter (fun o => o.blocks rs)) (fun s o => s.applyWrites gi o.writes)

/-- Operation `k` in flight completes (05 R186). In the as-A0 mode it completes no earlier than its budget
(05 R228). -/
def State.completeOp (s : State) (ph g k : Nat) : State :=
  let gi := galIdx ph g
  match (s.gal gi).inflight[k]? with
  | none => s
  | some o =>
    let s1 := s.waitUntil (s.doneFrom gi o)
    (s1.updGal gi (fun g => { g with inflight := g.inflight.eraseIdx k })).applyWrites gi o.writes

/-! ### When an operation can issue -/

/-- The lines of its own store that an operation reads or writes. -/
def gopLines (g : Gallery) (op : GOp) : List Nat :=
  let x := fun (r : BitVec 4) => (g.xr r.toNat).bits
  let line := fun (r : BitVec 4) => [storeOff (x r) 512 / 512]
  match op with
  | .mldt f =>
    let m := (Fmt.ofCode f.fmt).getD .e4m3
    linesOf (storeOff (x f.xt) 512) (tileBytes m)
      ++ (if f.scaled then linesOf (storeOff (x f.xs) 256) (64 * blocks m) else [])
  | .mma f =>
    let m := (Fmt.ofCode f.fmt).getD .e4m3
    let n := f.n1.toNat + 1
    if f.rv then []
    else linesOf (storeOff (x f.xr) 64) (n * rowBytes m)
      ++ (if f.scaled then linesOf (storeOff (x f.xs) 512) (n * blocks m) else [])
  | .mfill f => linesOf (storeOff (x f.xa) 512) 1536
  | .mspill f => linesOf (storeOff (x f.xa) 512) 1536
  | .ldh f => [storeOff (effAddr (x f.xa) f.imm 256) 256 / 512]
  | .ldl f => [storeOff (effAddr (x f.xa) f.imm 512) 512 / 512]
  | .ldx f => [storeOff (effAddr (x f.xa) f.imm 8) 8 / 512]
  | .sth f => [storeOff (effAddr (x f.xa) f.imm 256) 256 / 512]
  | .stl f => [storeOff (effAddr (x f.xa) f.imm 512) 512 / 512]
  | .stx f => [storeOff (effAddr (x f.xa) f.imm 8) 8 / 512]
  | .csend f => line f.xa
  | .awr f | .ard f | .swr f | .srd f => line f.xa
  | .bayw f | .bayr f => line f.xa
  | .hld f | .hst f => linesOf (storeOff (x f.xs) 512) (512 * (f.n1.toNat + 1))
  | .fpa f => linesOf (storeOff (x f.xa) 512) (512 * (f.n1.toNat + 1))
  | .fpout f => [storeOff (x f.xa) 32 / 512]
  | .mclr _ | .mrd _ | .vec _ _ | .cvt _ _ | .cfetch _ | .loop _ | .xset _ | .xaddi _ | .x3 _ _ | .xshli _ | .xshri _
  | .xmovv _ | .xlc _ | .psetn _ | .pand _ | .por _ | .pnot _ | .token _ | .bval _ | .land _ | .fpi _ => []

/-- An operation that names a transport path which its hall does not have: it waits for nothing (05 R614). -/
def noPath (w : Who) (op : GOp) : Bool :=
  match op with
  | .awr f | .ard f => (alcoveNbr w.ph f.side.toNat).isNone
  | .swr f | .srd f => f.side.toNat = dieOfHall w.ph
  | .mldt _ | .mma _ | .mclr _ | .mfill _ | .mspill _ | .mrd _ | .vec _ _ | .cvt _ _ | .ldh _ | .ldl _ | .ldx _
  | .sth _ | .stl _ | .stx _ | .csend _ | .bayw _ | .bayr _ | .hld _ | .hst _ | .cfetch _ | .fpa _ | .loop _ | .xset _
  | .xaddi _ | .x3 _ _ | .xshli _ | .xshri _ | .xmovv _ | .xlc _ | .psetn _ | .pand _ | .por _ | .pnot _ | .token _
  | .bval _ | .land _ | .fpi _ | .fpout _ => false

/-- No line that the operation accesses has a delivery pending at TREAD `t` (05 R191). -/
def linesReady (w : Who) (g : Gallery) (t : Nat) (op : GOp) : Bool :=
  noPath w op || (gopLines g op).all (fun l =>
    !g.pend.contains l && !g.rx.any (fun e => e.off / 512 = l) && decide (SMap.get 0 g.landAt l ≤ t))

/-- The tread at which port T has written the last delivered of the lines that an operation accesses. -/
def linesAt (w : Who) (g : Gallery) (op : GOp) : Nat :=
  if noPath w op then 0 else (gopLines g op).foldl (fun t l => max t (SMap.get 0 g.landAt l)) 0

/-- The alcove, stairwell, corridor and bay conditions of 02 Table 02.1. -/
def pathsReady (s : State) (w : Who) (op : GOp) : Bool :=
  match op with
  | .csend f => csendReady s w f
  | .awr f => awrReady s w f
  | .ard f => ardReady s w f
  | .swr f => swrReady s w f
  | .srd f => srdReady s w f
  | .bayw f => baywReady s w f
  | .bayr f => bayrReady s w f
  | .hst f => hstReady s w f
  | .token f => recordReady s w f.fab f.port.toNat
  | .bval f => recordReady s w f.fab f.port.toNat
  | .mldt _ | .mma _ | .mclr _ | .mfill _ | .mspill _ | .mrd _ | .vec _ _ | .cvt _ _ | .ldh _ | .ldl _ | .ldx _
  | .sth _ | .stl _ | .stx _ | .hld _ | .cfetch _ | .fpa _ | .loop _ | .xset _ | .xaddi _ | .x3 _ _ | .xshli _
  | .xshri _ | .xmovv _ | .xlc _ | .psetn _ | .pand _ | .por _ | .pnot _ | .land _ | .fpi _ | .fpout _ => true

/-- What the loader lets stand: an MMA whose tile and bank fit, and a fifth loop level never (05 R194, R206). -/
def opFits (g : Gallery) (op : GOp) : Bool :=
  match op with
  | .mma f => mmaFits g f
  | .loop _ => g.loops.length < 4
  | .mldt _ | .mclr _ | .mfill _ | .mspill _ | .mrd _ | .vec _ _ | .cvt _ _ | .ldh _ | .ldl _ | .ldx _ | .sth _ | .stl _
  | .stx _ | .csend _ | .awr _ | .ard _ | .swr _ | .srd _ | .bayw _ | .bayr _ | .hld _ | .hst _ | .cfetch _ | .fpa _
  | .xset _ | .xaddi _ | .x3 _ _ | .xshli _ | .xshri _ | .xmovv _ | .xlc _ | .psetn _ | .pand _ | .por _ | .pnot _
  | .token _ | .bval _ | .land _ | .fpi _ | .fpout _ => true

/-! ### What an operation does -/

/-- The effect of an operation at its issue. `v` is the state at the start of the tread; `s` the state so far. -/
def runOp (v s : State) (w : Who) (op : GOp) : State :=
  match op with
  | .mldt f => opMldt v s w f
  | .mma f => opMma v s w f
  | .mclr f => opMclr v s w f
  | .mfill f => opMfill v s w f
  | .mspill f => opMspill v s w f
  | .mrd f => opMrd v s w f
  | .vec o f => opVec v s w o f
  | .cvt o f => opCvt v s w o f
  | .ldh f => opLdh v s w f
  | .ldl f => opLdl v s w f
  | .ldx f => opLdx v s w f
  | .sth f => opSth v s w f
  | .stl f => opStl v s w f
  | .stx f => opStx v s w f
  | .csend f => opCsend v s w f
  | .awr f => opAwr v s w f
  | .ard f => opArd v s w f
  | .swr f => opSwr v s w f
  | .srd f => opSrd v s w f
  | .bayw f => opBayw v s w f
  | .bayr f => opBayr v s w f
  | .hld f => opHld v s w f
  | .hst f => opHst v s w f
  | .cfetch f => opCfetch v s w f
  | .fpa f => opFpa v s w f
  | .loop c1 => opLoop s w c1 ((s.hall w.ph).iss.pc + 1)
  | .xset f => opXset v s w f
  | .xaddi f => opXaddi v s w f
  | .x3 o f => opX3 v s w o f
  | .xshli f => opXshli v s w f
  | .xshri f => opXshri v s w f
  | .xmovv f => opXmovv v s w f
  | .xlc f => opXlc v s w f
  | .psetn f => opPsetn v s w f
  | .pand f => opP2 v s w false f
  | .por f => opP2 v s w true f
  | .pnot f => opPnot v s w f
  | .token f => opToken s w f
  | .bval f => opBval v s w f
  | .land f => opLand s w f
  | .fpi f => opFpi v s w f
  | .fpout f => opFpout v s w f

/-- The energy of an operation in the power windows of its latency (13 R524). -/
def State.spend (s : State) (w : Who) (op : GOp) : State :=
  let x := match op with | .mma f => ((s.gal (galIdx w.ph w.g)).xr f.xr.toNat).bits | _ => 0
  let e := gopEnergy x op
  if e = 0 then s
  else { s with pwr := { s.pwr with spent := spreadEnergy s.pwr.spent e s.now (s.latency w.ph op) } }

/-- Who issues an operation of gallery `g` of hall `ph`. -/
def State.who (s : State) (ph g : Nat) : Who :=
  let i := (s.hall ph).iss
  { ph, g, flight := BitVec.ofNat 16 i.flight, baddr := BitVec.ofNat 32 i.pc }

/-- Whether gallery `g` of hall `ph` issues operations at all: the hall runs a flight and the gallery is not fenced
(03 R86, R122). -/
def State.issues (s : State) (ph g : Nat) : Bool :=
  (s.hall ph).st = .running && (s.gal (galIdx ph g)).cond != .fenced

/-- What a lone operation finds: earlier operations that write its registers have completed, the treads for which its ports and
units are held by earlier ones have passed, and those for which port T still writes its lines (05 R190, R191). -/
def State.atIssue (s : State) (ph g : Nat) (op : GOp) (ups : List Upset) : State :=
  let s1 := (s.arise ups).settle (galIdx ph g) (gopRegs op)
  s1.waitUntil (max (s1.unitsAt ph g (s1.loneSlot ph g op) op) (linesAt (s1.who ph g) (s1.gal (galIdx ph g)) op))

/-- Whether an operation can issue at this tread. -/
def State.canIssue (s : State) (w : Who) (op : GOp) : Bool :=
  opFits (s.gal (galIdx w.ph w.g)) op && s.unitsFree w.ph w.g (s.loneSlot w.ph w.g op) op
    && linesReady w (s.gal (galIdx w.ph w.g)) s.now op && pathsReady s w op

/-- An operation that issues: its effect, its energy, and the ports and units that it holds. -/
def State.launchOp (s : State) (w : Who) (op : GOp) : State :=
  ((runOp s s w op).spend w op).holdUnits w.ph w.g (s.loneSlot w.ph w.g op) op

/-- The issue of one operation: an operation whose conditions are not met once it has waited for what its own gallery does does not
issue, and nothing changes. -/
def State.issue (s : State) (ph g : Nat) (op : GOp) (ups : List Upset) : State :=
  if s.issues ph g then
    let s1 := s.atIssue ph g op ups
    if s1.canIssue (s.who ph g) op then s1.launchOp (s.who ph g) op else s
  else s

/-- The outcome of a gallery operation's command: a reserved field value has no meaning (05 R183). Log 82 (DEDUCED). -/
def issueOp (ph : Fin 64) (g : Fin 16) (op : GOp) (ups : List Upset) (s : State) : Out :=
  if gopOk op then .next (s.issue ph.val g.val op ups) else .fault .reservedField

/-! ### The commands -/

/-- MLDT (R204). -/
def execMldt (ph : Fin 64) (g : Fin 16) (f : MldtF) (ups : List Upset) (s : State) : Out :=
  issueOp ph g (.mldt f) ups s

/-- MMA (R205). -/
def execMma (ph : Fin 64) (g : Fin 16) (f : MmaF) (ups : List Upset) (s : State) : Out :=
  issueOp ph g (.mma f) ups s

/-- MCLR (R207). -/
def execMclr (ph : Fin 64) (g : Fin 16) (f : MclrF) (s : State) : Out :=
  issueOp ph g (.mclr f) [] s

/-- MFILL (R207). -/
def execMfill (ph : Fin 64) (g : Fin 16) (f : MfillF) (ups : List Upset) (s : State) : Out :=
  issueOp ph g (.mfill f) ups s

/-- MSPILL (R207). -/
def execMspill (ph : Fin 64) (g : Fin 16) (f : MspillF) (ups : List Upset) (s : State) : Out :=
  issueOp ph g (.mspill f) ups s

/-- MRD (R208). -/
def execMrd (ph : Fin 64) (g : Fin 16) (f : MrdF) (ups : List Upset) (s : State) : Out :=
  issueOp ph g (.mrd f) ups s

/-- FADD (R152). -/
def execFadd (ph : Fin 64) (g : Fin 16) (f : VecF) (s : State) : Out :=
  issueOp ph g (.vec .fadd f) [] s

/-- FSUB (R152). -/
def execFsub (ph : Fin 64) (g : Fin 16) (f : VecF) (s : State) : Out :=
  issueOp ph g (.vec .fsub f) [] s

/-- FMUL (R152). -/
def execFmul (ph : Fin 64) (g : Fin 16) (f : VecF) (s : State) : Out :=
  issueOp ph g (.vec .fmul f) [] s

/-- FMA (R152). -/
def execFma (ph : Fin 64) (g : Fin 16) (f : VecF) (s : State) : Out :=
  issueOp ph g (.vec .fma f) [] s

/-- FMIN (R153). -/
def execFmin (ph : Fin 64) (g : Fin 16) (f : VecF) (s : State) : Out :=
  issueOp ph g (.vec .fmin f) [] s

/-- FMAX (R153). -/
def execFmax (ph : Fin 64) (g : Fin 16) (f : VecF) (s : State) : Out :=
  issueOp ph g (.vec .fmax f) [] s

/-- FCMPEQ (R152). -/
def execFcmpeq (ph : Fin 64) (g : Fin 16) (f : VecF) (s : State) : Out :=
  issueOp ph g (.vec .fcmpeq f) [] s

/-- FCMPLT (R152). -/
def execFcmplt (ph : Fin 64) (g : Fin 16) (f : VecF) (s : State) : Out :=
  issueOp ph g (.vec .fcmplt f) [] s

/-- FCMPLE (R152). -/
def execFcmple (ph : Fin 64) (g : Fin 16) (f : VecF) (s : State) : Out :=
  issueOp ph g (.vec .fcmple f) [] s

/-- FNEG (R135). -/
def execFneg (ph : Fin 64) (g : Fin 16) (f : VecF) (s : State) : Out :=
  issueOp ph g (.vec .fneg f) [] s

/-- FABS (R135). -/
def execFabs (ph : Fin 64) (g : Fin 16) (f : VecF) (s : State) : Out :=
  issueOp ph g (.vec .fabs f) [] s

/-- IADD (R209). -/
def execIadd (ph : Fin 64) (g : Fin 16) (f : VecF) (s : State) : Out :=
  issueOp ph g (.vec .iadd f) [] s

/-- ISUB (R209). -/
def execIsub (ph : Fin 64) (g : Fin 16) (f : VecF) (s : State) : Out :=
  issueOp ph g (.vec .isub f) [] s

/-- IMUL (R209). -/
def execImul (ph : Fin 64) (g : Fin 16) (f : VecF) (s : State) : Out :=
  issueOp ph g (.vec .imul f) [] s

/-- AND (R209). -/
def execAnd (ph : Fin 64) (g : Fin 16) (f : VecF) (s : State) : Out :=
  issueOp ph g (.vec .and f) [] s

/-- OR (R209). -/
def execOr (ph : Fin 64) (g : Fin 16) (f : VecF) (s : State) : Out :=
  issueOp ph g (.vec .or f) [] s

/-- XOR (R209). -/
def execXor (ph : Fin 64) (g : Fin 16) (f : VecF) (s : State) : Out :=
  issueOp ph g (.vec .xor f) [] s

/-- SHL (R209). -/
def execShl (ph : Fin 64) (g : Fin 16) (f : VecF) (s : State) : Out :=
  issueOp ph g (.vec .shl f) [] s

/-- SHR (R209). -/
def execShr (ph : Fin 64) (g : Fin 16) (f : VecF) (s : State) : Out :=
  issueOp ph g (.vec .shr f) [] s

/-- SAR (R209). -/
def execSar (ph : Fin 64) (g : Fin 16) (f : VecF) (s : State) : Out :=
  issueOp ph g (.vec .sar f) [] s

/-- ICMPEQ (R209). -/
def execIcmpeq (ph : Fin 64) (g : Fin 16) (f : VecF) (s : State) : Out :=
  issueOp ph g (.vec .icmpeq f) [] s

/-- ICMPLT (R209). -/
def execIcmplt (ph : Fin 64) (g : Fin 16) (f : VecF) (s : State) : Out :=
  issueOp ph g (.vec .icmplt f) [] s

/-- ICMPLTU (R209). -/
def execIcmpltu (ph : Fin 64) (g : Fin 16) (f : VecF) (s : State) : Out :=
  issueOp ph g (.vec .icmpltu f) [] s

/-- SEL (R175). -/
def execSel (ph : Fin 64) (g : Fin 16) (f : VecF) (s : State) : Out :=
  issueOp ph g (.vec .sel f) [] s

/-- MOV (R209). -/
def execMov (ph : Fin 64) (g : Fin 16) (f : VecF) (s : State) : Out :=
  issueOp ph g (.vec .mov f) [] s

/-- SPLAT (R209). -/
def execSplat (ph : Fin 64) (g : Fin 16) (f : VecF) (s : State) : Out :=
  issueOp ph g (.vec .splat f) [] s

/-- ROT (R209). -/
def execRot (ph : Fin 64) (g : Fin 16) (f : VecF) (s : State) : Out :=
  issueOp ph g (.vec .rot f) [] s

/-- IOTA (R209). -/
def execIota (ph : Fin 64) (g : Fin 16) (f : VecF) (s : State) : Out :=
  issueOp ph g (.vec .iota f) [] s

/-- CVTN (R212). -/
def execCvtn (ph : Fin 64) (g : Fin 16) (f : CvtF) (s : State) : Out :=
  issueOp ph g (.cvt .cvtn f) [] s

/-- CVTW (R212). -/
def execCvtw (ph : Fin 64) (g : Fin 16) (f : CvtF) (s : State) : Out :=
  issueOp ph g (.cvt .cvtw f) [] s

/-- CVTI (R151). -/
def execCvti (ph : Fin 64) (g : Fin 16) (f : CvtF) (s : State) : Out :=
  issueOp ph g (.cvt .cvti f) [] s

/-- CVTF (R149). -/
def execCvtf (ph : Fin 64) (g : Fin 16) (f : CvtF) (s : State) : Out :=
  issueOp ph g (.cvt .cvtf f) [] s

/-- VREDADD (R213). -/
def execVredadd (ph : Fin 64) (g : Fin 16) (f : VecF) (s : State) : Out :=
  issueOp ph g (.vec .vredadd f) [] s

/-- VREDMAX (R213). -/
def execVredmax (ph : Fin 64) (g : Fin 16) (f : VecF) (s : State) : Out :=
  issueOp ph g (.vec .vredmax f) [] s

/-- RCP (R168). -/
def execRcp (ph : Fin 64) (g : Fin 16) (f : VecF) (s : State) : Out :=
  issueOp ph g (.vec .rcp f) [] s

/-- DIV (R168). -/
def execDiv (ph : Fin 64) (g : Fin 16) (f : VecF) (s : State) : Out :=
  issueOp ph g (.vec .div f) [] s

/-- SQRT (R168). -/
def execSqrt (ph : Fin 64) (g : Fin 16) (f : VecF) (s : State) : Out :=
  issueOp ph g (.vec .sqrt f) [] s

/-- RSQRT (R168). -/
def execRsqrt (ph : Fin 64) (g : Fin 16) (f : VecF) (s : State) : Out :=
  issueOp ph g (.vec .rsqrt f) [] s

/-- EXP2 (R170). -/
def execExp2 (ph : Fin 64) (g : Fin 16) (f : VecF) (s : State) : Out :=
  issueOp ph g (.vec .exp2 f) [] s

/-- LOG2 (R171). -/
def execLog2 (ph : Fin 64) (g : Fin 16) (f : VecF) (s : State) : Out :=
  issueOp ph g (.vec .log2 f) [] s

/-- LDH (R214). -/
def execLdh (ph : Fin 64) (g : Fin 16) (f : LdF) (ups : List Upset) (s : State) : Out :=
  issueOp ph g (.ldh f) ups s

/-- LDL (R214). -/
def execLdl (ph : Fin 64) (g : Fin 16) (f : LdF) (ups : List Upset) (s : State) : Out :=
  issueOp ph g (.ldl f) ups s

/-- LDX (R214). -/
def execLdx (ph : Fin 64) (g : Fin 16) (f : LdF) (ups : List Upset) (s : State) : Out :=
  issueOp ph g (.ldx f) ups s

/-- STH (R214). -/
def execSth (ph : Fin 64) (g : Fin 16) (f : StF) (s : State) : Out :=
  issueOp ph g (.sth f) [] s

/-- STL (R214). -/
def execStl (ph : Fin 64) (g : Fin 16) (f : StF) (s : State) : Out :=
  issueOp ph g (.stl f) [] s

/-- STX (R214). -/
def execStx (ph : Fin 64) (g : Fin 16) (f : StF) (s : State) : Out :=
  issueOp ph g (.stx f) [] s

/-- CSEND (R215). -/
def execCsend (ph : Fin 64) (g : Fin 16) (f : CsendF) (ups : List Upset) (s : State) : Out :=
  issueOp ph g (.csend f) ups s

/-- AWR (R216). -/
def execAwr (ph : Fin 64) (g : Fin 16) (f : SideF) (ups : List Upset) (s : State) : Out :=
  issueOp ph g (.awr f) ups s

/-- ARD (R216). -/
def execArd (ph : Fin 64) (g : Fin 16) (f : SideF) (ups : List Upset) (s : State) : Out :=
  issueOp ph g (.ard f) ups s

/-- SWR (R241). -/
def execSwr (ph : Fin 64) (g : Fin 16) (f : SideF) (ups : List Upset) (s : State) : Out :=
  issueOp ph g (.swr f) ups s

/-- SRD (R241). -/
def execSrd (ph : Fin 64) (g : Fin 16) (f : SideF) (s : State) : Out :=
  issueOp ph g (.srd f) [] s

/-- BAYW (R217). -/
def execBayw (ph : Fin 64) (g : Fin 16) (f : BayF) (ups : List Upset) (s : State) : Out :=
  issueOp ph g (.bayw f) ups s

/-- BAYR (R217). -/
def execBayr (ph : Fin 64) (g : Fin 16) (f : BayF) (s : State) : Out :=
  issueOp ph g (.bayr f) [] s

/-- HLD (R218). -/
def execHld (ph : Fin 64) (g : Fin 16) (f : HbmF) (s : State) : Out :=
  issueOp ph g (.hld f) [] s

/-- HST (R218). -/
def execHst (ph : Fin 64) (g : Fin 16) (f : HbmF) (ups : List Upset) (s : State) : Out :=
  issueOp ph g (.hst f) ups s

/-- CFETCH (R219). -/
def execCfetch (ph : Fin 64) (g : Fin 16) (f : CfetchF) (s : State) : Out :=
  issueOp ph g (.cfetch f) [] s

/-- FPA (R225). -/
def execFpa (ph : Fin 64) (g : Fin 16) (f : FpaF) (ups : List Upset) (s : State) : Out :=
  issueOp ph g (.fpa f) ups s

/-- LOOP (R194). -/
def execLoop (ph : Fin 64) (g : Fin 16) (c1 : BitVec 16) (s : State) : Out :=
  issueOp ph g (.loop c1) [] s

/-- XSET (R209). -/
def execXset (ph : Fin 64) (g : Fin 16) (f : XsetF) (s : State) : Out :=
  issueOp ph g (.xset f) [] s

/-- XADDI (R209). -/
def execXaddi (ph : Fin 64) (g : Fin 16) (f : XaddiF) (s : State) : Out :=
  issueOp ph g (.xaddi f) [] s

/-- XADD (R209). -/
def execXadd (ph : Fin 64) (g : Fin 16) (f : X3F) (s : State) : Out :=
  issueOp ph g (.x3 .add f) [] s

/-- XSUB (R209). -/
def execXsub (ph : Fin 64) (g : Fin 16) (f : X3F) (s : State) : Out :=
  issueOp ph g (.x3 .sub f) [] s

/-- XAND (R209). -/
def execXand (ph : Fin 64) (g : Fin 16) (f : X3F) (s : State) : Out :=
  issueOp ph g (.x3 .and f) [] s

/-- XSHLI (R209). -/
def execXshli (ph : Fin 64) (g : Fin 16) (f : XshF) (s : State) : Out :=
  issueOp ph g (.xshli f) [] s

/-- XSHRI (R209). -/
def execXshri (ph : Fin 64) (g : Fin 16) (f : XshF) (s : State) : Out :=
  issueOp ph g (.xshri f) [] s

/-- XMUL (R209). -/
def execXmul (ph : Fin 64) (g : Fin 16) (f : X3F) (s : State) : Out :=
  issueOp ph g (.x3 .mul f) [] s

/-- XMOVV (R209). -/
def execXmovv (ph : Fin 64) (g : Fin 16) (f : XmovvF) (s : State) : Out :=
  issueOp ph g (.xmovv f) [] s

/-- XMINU (R209). -/
def execXminu (ph : Fin 64) (g : Fin 16) (f : X3F) (s : State) : Out :=
  issueOp ph g (.x3 .minu f) [] s

/-- XLC (R209). -/
def execXlc (ph : Fin 64) (g : Fin 16) (f : XlcF) (s : State) : Out :=
  issueOp ph g (.xlc f) [] s

/-- PSETN (R213). -/
def execPsetn (ph : Fin 64) (g : Fin 16) (f : PsetnF) (s : State) : Out :=
  issueOp ph g (.psetn f) [] s

/-- PAND (R213). -/
def execPand (ph : Fin 64) (g : Fin 16) (f : P3F) (s : State) : Out :=
  issueOp ph g (.pand f) [] s

/-- POR (R213). -/
def execPor (ph : Fin 64) (g : Fin 16) (f : P3F) (s : State) : Out :=
  issueOp ph g (.por f) [] s

/-- PNOT (R213). -/
def execPnot (ph : Fin 64) (g : Fin 16) (f : P3F) (s : State) : Out :=
  issueOp ph g (.pnot f) [] s

/-- TOKEN (R220). -/
def execToken (ph : Fin 64) (g : Fin 16) (f : TokenF) (s : State) : Out :=
  if f.fab && f.port.toNat < 30 && !s.hasPort f.port.toNat then .fault .absentUnit else issueOp ph g (.token f) [] s

/-- BVAL (R221). -/
def execBval (ph : Fin 64) (g : Fin 16) (f : BvalF) (s : State) : Out :=
  if f.fab && f.port.toNat < 30 && !s.hasPort f.port.toNat then .fault .absentUnit else issueOp ph g (.bval f) [] s

/-- LAND (R222). -/
def execLand (ph : Fin 64) (g : Fin 16) (f : LandF) (s : State) : Out :=
  issueOp ph g (.land f) [] s

/-- FPI (R225). -/
def execFpi (ph : Fin 64) (g : Fin 16) (f : BitVec 2) (s : State) : Out :=
  issueOp ph g (.fpi f) [] s

/-- FPOUT (R225). -/
def execFpout (ph : Fin 64) (g : Fin 16) (f : FpoutF) (s : State) : Out :=
  issueOp ph g (.fpout f) [] s

/-- OPERATION_COMPLETE (R186): operation `k` in flight on a gallery writes its results. -/
def execOperationComplete (ph : Fin 64) (g : Fin 16) (k : Nat) (s : State) : Out :=
  .next (s.completeOp ph.val g.val k)

end Sys2Proof.Machine
end

