-- ==== Sys2Proof/Machine/Bundle.lean ====
section
/-! DEFINITION. The bundle: its slots and their fields (05 R181 to R183, Tables 05.1 to 05.11), and the checks that the
loader makes of one bundle.
-/
namespace Sys2Proof.Machine

/-- Bits `hi` to `lo` of a slot are 0. -/
def clear {n : Nat} (x : BitVec n) (hi lo : Nat) : Bool := x.extractLsb' lo (hi + 1 - lo) = 0

/-- What a slot holds: `none` for a reserved encoding, `some none` for an empty slot. -/
abbrev Slot := Option (Option GOp)

/-- An operation whose reserved bits are 0. -/
def slotOp (ok : Bool) (op : GOp) : Slot := if ok && gopOk op then some (some op) else none

/-- The control slot (Table 05.11). -/
def decodeC (x : BitVec 32) : Slot :=
  let f := fun (lo w : Nat) => x.extractLsb' lo w
  let x3 : X3F := { xd := f 23 4, xa := f 19 4, xb := f 15 4 }
  let xsh : XshF := { xd := f 23 4, xa := f 19 4, sh := f 13 6 }
  let p3 : P3F := { pd := f 24 3, pa := f 21 3, pb := f 18 3 }
  match (f 27 5 : BitVec 5).toNat with
  | 0x00 => if x = 0 then some none else none
  | 0x01 => slotOp (clear x 10 0) (.loop (f 11 16))
  | 0x02 => slotOp (clear x 3 0) (.xset { xd := f 23 4, chunk := f 21 2, imm := f 5 16, keep := x.getLsbD 4 })
  | 0x03 => slotOp (clear x 2 0) (.xaddi { xd := f 23 4, xa := f 19 4, imm := f 3 16 })
  | 0x04 => slotOp (clear x 14 0) (.x3 .add x3)
  | 0x05 => slotOp (clear x 14 0) (.x3 .sub x3)
  | 0x06 => slotOp (clear x 14 0) (.x3 .and x3)
  | 0x07 => slotOp (clear x 12 0) (.xshli xsh)
  | 0x08 => slotOp (clear x 12 0) (.xshri xsh)
  | 0x09 => slotOp (clear x 14 0) (.x3 .mul x3)
  | 0x0A => slotOp (clear x 10 0) (.xmovv { xd := f 23 4, va := f 17 6, lane := f 11 6 })
  | 0x0B => slotOp (clear x 14 0) (.x3 .minu x3)
  | 0x0C => slotOp (clear x 20 0) (.xlc { xd := f 23 4, level := f 21 2 })
  | 0x0D => slotOp (clear x 16 0) (.psetn { pd := f 24 3, n := f 17 7 })
  | 0x0E => slotOp (clear x 17 0) (.pand p3)
  | 0x0F => slotOp (clear x 17 0) (.por p3)
  | 0x10 => slotOp (clear x 20 0) (.pnot { p3 with pb := 0 })
  | 0x11 => slotOp (clear x 0 0)
      (.token { flight := f 15 12, delta := f 7 8, fab := x.getLsbD 6, port := f 1 5 })
  | 0x12 => slotOp (clear x 8 0) (.bval { xa := f 23 4, delta := f 15 8, fab := x.getLsbD 14, port := f 9 5 })
  | 0x13 => slotOp true
      (.land { w4 := f 16 11, d4 := f 4 12, commit := x.getLsbD 3, quiesce := x.getLsbD 2, branch := x.getLsbD 1
               last := x.getLsbD 0 })
  | 0x14 => slotOp (clear x 24 0) (.fpi (f 25 2))
  | 0x15 => slotOp (clear x 3 0) (.fpout { f := f 25 2, xa := f 21 4, tag := f 5 16, inc := x.getLsbD 4 })
  | _ => none

/-- The matrix slot (Tables 05.4, 05.5). A slot of opcode 0 is empty, whatever its other bits (R182): the tables of this slot and of
the slots below mark none of them reserved. -/
def decodeM (x : BitVec 48) : Slot :=
  let f := fun (lo w : Nat) => x.extractLsb' lo w
  match (f 44 4 : BitVec 4).toNat with
  | 0x0 => some none
  | 0x1 => slotOp (clear x 28 0)
      (.mldt { fmt := f 40 4, xt := f 36 4, xs := f 32 4, scaled := x.getLsbD 31, tr := x.getLsbD 30, inc := x.getLsbD 29 })
  | 0x2 =>
    let rv := x.getLsbD 18
    slotOp (clear x 17 0 && (!rv || clear x 31 30))
      (.mma { bank := f 42 2, fmt := f 38 4, xr := if rv then 0 else f 34 4, xs := if rv then 0 else f 30 4
              scaled := x.getLsbD 29, swap := x.getLsbD 28, inc := x.getLsbD 27, n1 := f 19 8, rv
              vr := if rv then f 32 6 else 0 })
  | 0x3 => slotOp (clear x 24 0) (.mclr { bank := f 42 2, mode := x.getLsbD 41, ea := f 25 16 })
  | 0x4 => slotOp (clear x 19 0)
      (.mfill { bank := f 42 2, mode := x.getLsbD 41, ea := f 25 16, xa := f 21 4, inc := x.getLsbD 20 })
  | 0x5 => slotOp (clear x 36 0) (.mspill { bank := f 42 2, xa := f 38 4, inc := x.getLsbD 37 })
  | 0x6 => slotOp (clear x 7 0)
      (.mrd { bank := f 42 2, vd := f 36 6, dfmt := f 34 2, rnd := f 31 3, sat := x.getLsbD 30, clr := x.getLsbD 29
              pos := x.getLsbD 28, xk := f 25 3, adv := x.getLsbD 24, t := f 8 16 })
  | _ => none

/-- The vector operation that an opcode of Table 05.6 names in the arithmetic form. -/
def vopOf (n : Nat) : Option VOp :=
  match n with
  | 0x01 => some .fadd | 0x02 => some .fsub | 0x03 => some .fmul | 0x04 => some .fma | 0x05 => some .fmin
  | 0x06 => some .fmax | 0x07 => some .fcmpeq | 0x08 => some .fcmplt | 0x09 => some .fcmple | 0x0A => some .fneg
  | 0x0B => some .fabs | 0x10 => some .iadd | 0x11 => some .isub | 0x12 => some .imul | 0x13 => some .and
  | 0x14 => some .or | 0x15 => some .xor | 0x16 => some .shl | 0x17 => some .shr | 0x18 => some .sar
  | 0x19 => some .icmpeq | 0x1A => some .icmplt | 0x1B => some .icmpltu | 0x1C => some .sel | 0x1D => some .mov
  | 0x1E => some .splat | 0x1F => some .rot | 0x20 => some .iota | 0x25 => some .vredadd | 0x26 => some .vredmax
  | 0x30 => some .rcp | 0x31 => some .div | 0x32 => some .sqrt | 0x33 => some .rsqrt | 0x34 => some .exp2
  | 0x35 => some .log2 | _ => none

/-- The conversion that an opcode names. -/
def cvopOf (n : Nat) : Option CvOp :=
  match n with
  | 0x21 => some .cvtn | 0x22 => some .cvtw | 0x23 => some .cvti | 0x24 => some .cvtf | _ => none

/-- A vector slot (Tables 05.6, 05.7). -/
def decodeV (x : BitVec 40) : Slot :=
  let f := fun (lo w : Nat) => x.extractLsb' lo w
  let op := (f 34 6 : BitVec 6).toNat
  if op = 0 then some none
  else
    match cvopOf op with
    | some o => slotOp (clear x 1 0 && clear x 10 10)
        (.cvt o { vd := f 28 6, va := f 22 6, fmt := f 18 4, pos := f 15 3, xk := f 12 3, adv := x.getLsbD 11, p := f 7 3
                  pn := x.getLsbD 6, rnd := f 3 3, sat := x.getLsbD 2 })
    | none =>
      match vopOf op with
      | some o => slotOp (clear x 1 0)
          (.vec o { vd := f 28 6, va := f 22 6, vb := f 16 6, vc := f 10 6, p := f 7 3, pn := x.getLsbD 6, rnd := f 3 3
                    sat := x.getLsbD 2 })
      | none => none

/-- The load slot (Table 05.8). -/
def decodeLd (x : BitVec 32) : Slot :=
  let f := fun (lo w : Nat) => x.extractLsb' lo w
  let l : LdF := { vd := f 22 6, port := x.getLsbD 21, xa := f 17 4, inc := x.getLsbD 16, imm := f 4 12 }
  match (f 28 4 : BitVec 4).toNat with
  | 0 => some none
  | 1 => slotOp (clear x 3 0) (.ldh l)
  | 2 => slotOp (clear x 3 0) (.ldl l)
  | 3 => slotOp (clear x 3 0) (.ldx l)
  | _ => none

/-- The store slot (Table 05.8). -/
def decodeSt (x : BitVec 24) : Slot :=
  let f := fun (lo w : Nat) => x.extractLsb' lo w
  let l : StF := { vs := f 14 6, xa := f 10 4, inc := x.getLsbD 9, p := f 6 3, pn := x.getLsbD 5, imm := f 0 5 }
  match (f 20 4 : BitVec 4).toNat with
  | 0 => some none
  | 1 => slotOp true (.sth l)
  | 2 => slotOp true (.stl l)
  | 3 => slotOp true (.stx l)
  | _ => none

/-- The transport slot (Table 05.9). -/
def decodeTr (x : BitVec 24) : Slot :=
  let f := fun (lo w : Nat) => x.extractLsb' lo w
  let sd : SideF := { side := f 18 2, xa := f 14 4, inc := x.getLsbD 13 }
  let by_ : BayF := { xa := f 16 4, xb := f 12 4, inc := x.getLsbD 11, incb := x.getLsbD 10 }
  let hb : HbmF := { xs := f 16 4, xh := f 12 4, n1 := f 7 5, win := f 3 4, inc := x.getLsbD 2 }
  match (f 20 4 : BitVec 4).toNat with
  | 0x0 => some none
  | 0x1 => slotOp (clear x 9 0) (.csend { dir := x.getLsbD 19, xa := f 15 4, xm := f 11 4, inc := x.getLsbD 10 })
  | 0x2 => slotOp (clear x 12 0) (.awr sd)
  | 0x3 => slotOp (clear x 12 0) (.ard sd)
  | 0x4 => slotOp (clear x 12 0) (.swr sd)
  | 0x5 => slotOp (clear x 12 0) (.srd sd)
  | 0x6 => slotOp (clear x 9 0) (.bayw by_)
  | 0x7 => slotOp (clear x 9 0) (.bayr by_)
  | 0x8 => slotOp (clear x 1 0) (.hld hb)
  | 0x9 => slotOp (clear x 1 0) (.hst hb)
  | 0xA => slotOp (clear x 8 0) (.cfetch { xh := f 16 4, n1 := f 10 6, inc := x.getLsbD 9 })
  | 0xB => slotOp (clear x 6 0) (.fpa { f := f 18 2, xa := f 14 4, n1 := f 8 6, inc := x.getLsbD 7 })
  | _ => none

/-- A decoded bundle: its issue delta, its loop ends, and its operations with the number of their slot, 0 control, 1
matrix, 2 and 3 vector A and B, 4 load, 5 store, 6 transport. -/
structure Bun where
  delta : Nat
  lend : Nat
  ops : List (Nat × GOp)
  deriving DecidableEq, Repr

/-- The registers that an operation writes (05 R188). -/
def gopDests : GOp → List Reg
  | .mldt f => .shadow :: regIf f.inc (.x f.xt.toNat)
  | .mma f => .bank f.bank.toNat :: ((if f.swap then [.shadow, .active] else []) ++ regIf (f.inc && !f.rv) (.x f.xr.toNat))
  | .mclr f => [.bank f.bank.toNat]
  | .mfill f => .bank f.bank.toNat :: regIf f.inc (.x f.xa.toNat)
  | .mspill f => regIf f.inc (.x f.xa.toNat)
  | .mrd f => .v f.vd.toNat :: (regIf f.clr (.bank f.bank.toNat) ++ regIf f.adv (.x (2 * f.xk.toNat + 1)))
  | .vec o f => if vopIsCmp o then [.p f.vd.toNat] else [.v f.vd.toNat]
  | .cvt _ f => .v f.vd.toNat :: regIf f.adv (.x (2 * f.xk.toNat + 1))
  | .ldh f => .v f.vd.toNat :: regIf f.inc (.x f.xa.toNat)
  | .ldl f => .v f.vd.toNat :: .v (f.vd.toNat + 1) :: regIf f.inc (.x f.xa.toNat)
  | .ldx f => .x f.vd.toNat :: regIf f.inc (.x f.xa.toNat)
  | .sth f | .stl f | .stx f => regIf f.inc (.x f.xa.toNat)
  | .csend f => regIf f.inc (.x f.xa.toNat)
  | .awr f | .ard f | .swr f | .srd f => regIf f.inc (.x f.xa.toNat)
  | .bayw f | .bayr f => regIf f.inc (.x f.xa.toNat) ++ regIf f.incb (.x f.xb.toNat)
  | .hld f | .hst f => if f.inc then [.x f.xs.toNat, .x f.xh.toNat] else []
  | .cfetch f => regIf f.inc (.x f.xh.toNat)
  | .fpa f => .f f.f.toNat :: regIf f.inc (.x f.xa.toNat)
  | .loop _ | .token _ | .bval _ | .land _ => []
  | .xset f => [.x f.xd.toNat]
  | .xaddi f => [.x f.xd.toNat]
  | .x3 _ f => [.x f.xd.toNat]
  | .xshli f | .xshri f => [.x f.xd.toNat]
  | .xmovv f => [.x f.xd.toNat]
  | .xlc f => [.x f.xd.toNat]
  | .psetn f => [.p f.pd.toNat]
  | .pand f | .por f | .pnot f => [.p f.pd.toNat]
  | .fpi f => [.f f.toNat]
  | .fpout f => regIf f.inc (.x f.xa.toNat)

/-- No two operations of a list write one register; X0 and P0 are never written (05 R184, R188). -/
def noClash : List (Nat × GOp) → Bool
  | [] => true
  | e :: l =>
    let ds := (gopDests e.2).filter (fun r => r != .x 0 && r != .p 0)
    ds.all (fun r => !l.any (fun e' => (gopDests e'.2).contains r)) && noClash l

/-- Whether an operation is LAND. -/
def isLand : GOp → Bool
  | .land _ => true
  | _ => false

/-- Whether an operation uses the function unit. -/
def isFunc : GOp → Bool
  | .vec o _ => vopIsFunc o
  | _ => false

/-- The rules of one bundle that the loader checks (03 R98, 05 R188, R222). -/
def bunOk (ops : List (Nat × GOp)) : Bool :=
  noClash ops && (ops.filter (fun e => isFunc e.2)).length ≤ 1
    && (!ops.any (fun e => isLand e.2) || ops.length = 1)

/-- An operation of a slot, if any. -/
def slotList (n : Nat) (o : Option GOp) : List (Nat × GOp) := (o.map (fun op => (n, op))).toList

/-- The bundle that 256 bits encode; none for one that the loader rejects (05 R183). -/
def decodeBundle (b : Bundle) : Option Bun :=
  let delta := (b.extractLsb' 244 12).toNat
  let lend := (b.extractLsb' 240 3).toNat
  if delta = 0 || b.getLsbD 243 || 4 < lend then none
  else
    match decodeC (b.extractLsb' 208 32), decodeM (b.extractLsb' 160 48), decodeV (b.extractLsb' 120 40),
      decodeV (b.extractLsb' 80 40), decodeLd (b.extractLsb' 48 32), decodeSt (b.extractLsb' 24 24),
      decodeTr (b.extractLsb' 0 24) with
    | some c, some m, some va, some vb, some ld, some st, some tr =>
      let ops := slotList 0 c ++ slotList 1 m ++ slotList 2 va ++ slotList 3 vb ++ slotList 4 ld ++ slotList 5 st
        ++ slotList 6 tr
      if bunOk ops then some { delta, lend, ops } else none
    | _, _, _, _, _, _, _ => none

/-! ### The checks of a stream (05 R183, R194, R197, R206, R220, R221; 04 R155) -/

/-- What the bundles before a place of a stream leave there, taken once in order: the first body bundles of the open loops, innermost
first, whether a tile has been loaded and whether one has been made active, the formats of the two tiles with their scaled bits, and
the modes of the banks. -/
structure Walk where
  loops : List Nat := []
  loaded : Bool := false
  active : Bool := false
  shadowFmt : Option (Fmt × Bool) := none
  activeFmt : Option (Fmt × Bool) := none
  modes : List (BitVec 2 × BankMode) := []

/-- An MMA that the loader rejects where it stands (05 R206; 04 R138, R155). -/
def Walk.mmaBad (w : Walk) (f : MmaF) : Bool :=
  !(if f.swap then w.loaded else w.active) ||
    (match Fmt.ofCode f.fmt, (if f.swap then w.shadowFmt else w.activeFmt) with
    | some a, some (b, sc) => a.width ≠ b.width
        || (match w.modes.find? (fun e => e.1 = f.bank) with
          | some (_, m) => !modeAccepts m a b (f.scaled || sc)
          | none => false)
    | _, _ => false)

/-- The walk after an operation of bundle `i`; none where the loader rejects it, on a part of `ports` ports. -/
def Walk.op (w : Walk) (ports i : Nat) (mb : Bool) (op : GOp) : Option Walk :=
  let mode := fun (w : Walk) (b : BitVec 2) (m : Bool) => { w with modes := (b, bankMode mb m) :: w.modes }
  match op with
  | .loop _ => if w.loops.length < 4 then some { w with loops := (i + 1) :: w.loops } else none
  | .mldt f => some { w with loaded := true, shadowFmt := (Fmt.ofCode f.fmt).map (fun a => (a, f.scaled)) }
  | .mma f =>
    if w.mmaBad f then none
    else some (if f.swap then { w with active := true, activeFmt := w.shadowFmt, shadowFmt := w.activeFmt } else w)
  | .mclr f => some (mode w f.bank f.mode)
  | .mfill f => some (mode w f.bank f.mode)
  | .token f => if f.fab && ports ≤ f.port.toNat then none else some w
  | .bval f => if f.fab && ports ≤ f.port.toNat then none else some w
  | .land f => if f.last && !w.loops.isEmpty then none else some w
  | _ => some w

/-- The walk after bundle `i`: its loop ends come before its operations (05 R195). A LAND with end set lies in no loop body, which has at
most 512 bundles (05 R197). -/
def Walk.step (w : Walk) (ports i : Nat) (mb : Bool) (b : Bun) : Option Walk :=
  let inBody := !w.loops.isEmpty && b.ops.any (fun e => match e.2 with | .land f => f.last | _ => false)
  if w.loops.length < b.lend || inBody || (w.loops.take b.lend).any (fun j => 512 < i + 1 - j) then none
  else b.ops.foldl (fun r e => r.bind (fun w => w.op ports i mb e.2)) (some { w with loops := w.loops.drop b.lend })

/-- The first bundle, from number `i` on, that is rejected. -/
def streamBadFrom (ports : Nat) (mb : Bool) : Nat → Walk → List Bundle → Option Nat
  | _, _, [] => none
  | i, w, b :: bs =>
    match (decodeBundle b).bind (w.step ports i mb) with
    | none => some i
    | some w1 => streamBadFrom ports mb (i + 1) w1 bs

/-- The first bundle of a stream that the loader rejects. -/
def streamBad (ports : Nat) (mb : Bool) (l : List Bundle) : Option Nat := streamBadFrom ports mb 0 {} l

end Sys2Proof.Machine
end

