-- ==== Sys2Proof/Machine/Issue.lean ====
section
/-! DEFINITION. ISSUE_GROUP: the issue of one issue group of a hall (02 R38 to R47, 05 R186 to R197, R229, R230,
13 R524 to R526).
-/
namespace Sys2Proof.Machine

/-! ### Instruction store (03 R93, R99 to R102) -/

/-- Bundle `b` is present in the instruction store of a gallery. -/
def Gallery.hasBundle (g : Gallery) (h b : Nat) : Bool :=
  let e := SMap.get {} g.istore (istorePos h b)
  e.held && e.index = b

/-- The check of one position at a read for issue: corrected errors are counted; an uncorrectable one is counted and
recorded once, and the gallery becomes suspect (03 R93). -/
def State.checkIstore (s : State) (w : Who) (pos : Nat) : State :=
  let gi := galIdx w.ph w.g
  let hit := s.upsets.filter (fun u => inIstore gi pos u.site)
  if hit.isEmpty then s
  else
    let s1 := { s with upsets := s.upsets.filter (fun u => !inIstore gi pos u.site) }
    let s2 := s1.countCe gi 1 ((hit.filter (fun u => u.ce)).length)
    let bad := (SMap.get {} (s2.gal gi).istore pos).bad
    if hit.any (fun u => !u.ce) && !bad then
      let s3 := s2.updGal gi (fun g =>
        { g with ue := satInc g.ue, istore := SMap.upd {} g.istore pos (fun e => { e with bad := true }) })
      (s3.markSuspect gi).raise (s3.galRec w 0x0202 0 true (BitVec.ofNat 64 pos))
    else s2

/-- Every V register, every X and P register but X0 and P0, every F register and every bank poisoned (05 R229). -/
def Gallery.poisonAll (g : Gallery) : Gallery :=
  { g with
    v := (List.range 64).foldl (fun m r => SMap.upd {} m r (fun c => { c with poison := BitVec.allOnes 64 })) g.v
    x := (List.range 15).foldl (fun m r => SMap.upd {} m (r + 1) (fun c => { c with poison := true })) g.x
    p := (List.range 7).foldl (fun m r => SMap.upd {} m (r + 1) (fun c => { c with poison := true })) g.p
    f := (List.range 4).foldl (fun m r => SMap.upd {} m r (fun c => { c with poison := true })) g.f
    banks := (List.range 4).foldl (fun m r => SMap.upd {} m r (fun b => b.poisonAll true)) g.banks }

/-! ### Loops (05 R194 to R196) -/

/-- Up to `m` open loops examined from the innermost: where the next bundle is when one iterates, and the loops that
stay open. -/
def closeLoops : Nat → List LoopLvl → Option Nat × List LoopLvl
  | 0, l => (none, l)
  | m + 1, l =>
    match l.getLast? with
    | none => (none, l)
    | some x =>
      if x.iter + 1 < x.trip then (some x.start, l.dropLast ++ [{ x with iter := x.iter + 1 }])
      else closeLoops m l.dropLast

/-! ### The group -/

/-- The 16 galleries. -/
def gals16 : List Nat := List.range 16

/-- Decoded bundles by gallery. -/
abbrev Group := List (Nat × Bun)

/-- Whether an operation writes the gallery's own store at its issue: a read of the same tread comes before it (03 R91). -/
def gopStores : GOp → Bool
  | .mspill _ | .sth _ | .stl _ | .stx _ | .ard _ | .srd _ | .bayr _ | .hld _ | .fpout _ => true
  | .mldt _ | .mma _ | .mclr _ | .mfill _ | .mrd _ | .vec _ _ | .cvt _ _ | .ldh _ | .ldl _ | .ldx _ | .csend _ | .awr _
  | .swr _ | .bayw _ | .hst _ | .cfetch _ | .fpa _ | .loop _ | .xset _ | .xaddi _ | .x3 _ _ | .xshli _ | .xshri _
  | .xmovv _ | .xlc _ | .psetn _ | .pand _ | .por _ | .pnot _ | .token _ | .bval _ | .land _ | .fpi _ => false

/-- The units that a group takes, and the alcove sides and stairwell peers, each with its direction: a share that takes one twice
at a tread is rejected (03 R104; 05 R189, R216). Units have keys by their gallery; paths count from 32768. -/
def State.groupTakes (s : State) (ph : Nat) (gr : Group) : List Nat :=
  gr.flatMap (fun e => e.2.ops.flatMap (fun o =>
    (gopUnits (mmaAddr (s.gal (galIdx ph e.1)) o.2) o.1 o.2).map (fun u => 16 * unitOwner ph e.1 u.1 + u.1)
      ++ (match o.2 with
        | .awr f => [32768 + f.side.toNat]
        | .ard f => [32772 + f.side.toNat]
        | .swr f => [32776 + f.side.toNat]
        | .srd f => [32780 + f.side.toNat]
        | _ => [])))

/-- Whether the loader lets a group stand at this point of its flight: its operations fit the state that the flight has made, its
loops nest (05 R194, R195), the ports that it names are there (05 R220, R221), and it takes no unit or path twice. A group that the loader rejects does not issue. Log 96 (DESIGN
CHOICE). -/
def State.groupFits (s : State) (ph : Nat) (gr : Group) : Bool :=
  (s.groupTakes ph gr).Nodup && gr.all (fun e =>
    let gal := s.gal (galIdx ph e.1)
    let (back, open_) := closeLoops e.2.lend gal.loops
    decide (e.2.lend ≤ gal.loops.length) && e.2.ops.all (fun o => match o.2 with
      | .loop _ => back.isSome || decide (open_.length < 4)
      | .token f => !f.fab || s.hasPort f.port.toNat
      | .bval f => !f.fab || s.hasPort f.port.toNat
      | op => opFits gal op))

/-- The receive buffers have room for every CSEND of a group together (03 R106). -/
def State.rxRoom (s : State) (ph : Nat) (gr : Group) : Bool :=
  let to_ := gr.flatMap (fun e => e.2.ops.flatMap (fun o => match o.2 with
    | .csend f => csendTo s (s.who ph e.1) f
    | _ => []))
  to_.all (fun r => decide ((s.gal (galIdx ph r)).rxTaken s.now + to_.count r ≤ 4))

/-- An own condition of 02 Table 02.1 is not met: an earlier writer has not completed, or a unit is busy. -/
def State.ownUnmet (s : State) (ph : Nat) (gr : Group) : Bool :=
  gr.any (fun e => e.2.ops.any (fun o =>
    (s.gal (galIdx ph e.1)).inflight.any (fun i => i.blocks (gopRegs o.2)) || !s.unitsFree ph e.1 o.1 o.2))

/-- A wait condition is not met: a delivery, an alcove, stairwell, corridor or bay condition. -/
def State.waitUnmet (s : State) (ph : Nat) (gr : Group) : Bool :=
  gr.any (fun e => e.2.ops.any (fun o =>
    !linesReady (s.who ph e.1) (s.gal (galIdx ph e.1)) s.now o.2 || !pathsReady s (s.who ph e.1) o.2)) || !s.rxRoom ph gr

/-- The tread at which the path of an operation had its entry or its room, where that is known (02 Table 02.1). -/
def State.pathAt (s : State) (w : Who) (op : GOp) : Nat :=
  let x := s.xport
  let head := fun (l : List BufEnt) => match l with | e :: _ => e.from_ | [] => 0
  match op with
  | .awr f => SMap.get 0 x.roomAt (alcoveKey w.ph f.side.toNat)
  | .ard f => match alcoveNbr w.ph f.side.toNat with
    | some n => head (x.alc (alcoveKey n (oppSide f.side.toNat)))
    | none => 0
  | .swr f => SMap.get 0 x.roomAt (256 + stairKey (mirror w.ph f.side.toNat) (dieOfHall w.ph))
  | .srd f => head (x.stw (stairKey w.ph f.side.toNat))
  | .csend f => (csendTo s w f).foldl (fun t r =>
      let g := s.gal (galIdx w.ph r)
      max t (match g.rxFreed[3 - g.rx.length]? with | some u => u + 1 | none => 0)) 0
  | .bayr f =>
    let d := bayDesc ((s.gal (galIdx w.ph w.g)).xr f.xb.toNat).bits
    (s.bay (d.1 * 128 + d.2.1)).doneAt
  | .bayw f =>
    let d := bayDesc ((s.gal (galIdx w.ph w.g)).xr f.xb.toNat).bits
    SMap.get 0 x.roomAt (roomKey (dieOfHall w.ph) (4 + d.1 / 6))
  | _ => 0

/-- The tread at which the last of a group's own conditions was met (02 R46). -/
def State.ownAt (s : State) (ph : Nat) (gr : Group) : Nat :=
  gr.foldl (fun t e => e.2.ops.foldl (fun t o =>
    (gopRegs o.2).foldl (fun t r => max t (SMap.get 0 (s.gal (galIdx ph e.1)).doneAt r.code)) (max t (s.unitsAt ph e.1 o.1 o.2))) t) 0

/-- The tread at which the last of a group's wait conditions was met: its bundles' arrival (03 R102), its lines and its paths. -/
def State.waitAt (s : State) (ph : Nat) (gr : Group) : Nat :=
  let pos := istorePos (s.hall ph).iss.slot (s.hall ph).iss.pc
  gr.foldl (fun t e =>
    let g := s.gal (galIdx ph e.1)
    e.2.ops.foldl (fun t o => max (max t (linesAt (s.who ph e.1) g o.2)) (s.pathAt (s.who ph e.1) o.2))
      (max t (SMap.get {} g.istore pos).from_)) 0

/-- The energy of a group in the present power window (13 R524). -/
def State.groupEnergy (s : State) (ph : Nat) (gr : Group) : Nat :=
  let w := s.now / 200
  gr.foldl (fun a e => e.2.ops.foldl (fun a o =>
    let fj := gopEnergy (mmaAddr (s.gal (galIdx ph e.1)) o.2) o.2
    if fj = 0 then a else a + SMap.get 0 (spreadEnergy [] fj s.now (s.latency ph o.2)) w) a) 0

/-- The budget of a power window: the least of the eight windows before, plus 400 W × 125 ns (13 R525). -/
def State.budget (s : State) (w : Nat) : Nat :=
  let e := fun (i : Nat) => if i < w then SMap.get 0 s.pwr.spent (w - 1 - i) else 0
  (List.range 7).foldl (fun a i => min a (e (i + 1))) (e 0) + 50000000000

/-- The limiter refuses a group whose share would pass the window's budget. -/
def State.limited (s : State) (ph : Nat) (gr : Group) : Bool :=
  let w := s.now / 200
  s.budget w < SMap.get 0 s.pwr.spent w + s.groupEnergy ph gr

/-- The operations of a bundle in the order in which their store accesses count: those that write the store come last (03 R91). -/
def Bun.order (b : Bun) : List (Nat × GOp) :=
  let l := b.ops.filter (fun o => !isLand o.2)
  l.filter (fun o => !gopStores o.2) ++ l.filter (fun o => gopStores o.2)

/-- The operations of one gallery's bundle, but LAND and LOOP, which the hall acts on once. -/
def State.runBundle (v s : State) (ph g : Nat) (b : Bun) : State :=
  s.each b.order (fun s o =>
    match o.2 with
    | .loop _ => s
    | op =>
      let w := s.who ph g
      ((runOp v s w op).spend w op).holdUnits ph g o.1 op)

/-- The loop count that a bundle opens, if it holds a LOOP. -/
def Bun.loopOf (b : Bun) : Option (BitVec 16) :=
  b.ops.findSome? (fun o => match o.2 with | .loop c => some c | _ => none)

/-- The LAND of a bundle. -/
def Bun.landOf (b : Bun) : Option LandF :=
  b.ops.findSome? (fun o => match o.2 with | .land f => some f | _ => none)

/-- The loops and the next bundle after a bundle issues (05 R195). -/
def State.advance (s : State) (ph : Nat) (b : Bun) : State :=
  let pc := (s.hall ph).iss.pc
  let (back, open_) := closeLoops b.lend (s.gal (galIdx ph 0)).loops
  let loops := match back, b.loopOf with
    | none, some c => open_ ++ [{ trip := c.toNat + 1, iter := 0, start := pc + 1 }]
    | _, _ => open_
  let s1 := s.each gals16 (fun s g => s.updGal (galIdx ph g) (fun x => { x with loops }))
  s1.updHall ph (fun h => { h with iss := { h.iss with pc := back.getD (pc + 1) } })

/-- A boost asked for at TREAD `t` (02 R47). -/
def HallPwr.askBoost (p : HallPwr) (t : Nat) : HallPwr := { p with boostAsked := some t }

/-- Whether a stretch is own: the last condition met was of the own class, or one of each class at the same tread. `own` and `wait`
are the treads at which the last of each class was met; where neither is known, what the last try found unmet decides. A wait for the
limiter is of the wait class (02 R46, 13 R526). -/
def HallIss.ownLast (i : HallIss) (own wait : Nat) : Bool :=
  i.limited.isNone && (if max own wait ≤ i.last then i.unmetOwn || !i.unmetWait else decide (wait ≤ own))

/-- The counters of an issue: lag, stretch, boost request and limiter (02 R45 to R47, 13 R526). -/
def Hall.counted (h : Hall) (now lag ownAt waitAt : Nat) : Hall :=
  let i := h.iss
  let stretch := decide (i.lag < lag)
  let own := stretch && i.ownLast ownAt waitAt
  let boost := own && decide (i.lag < 6 ∧ 6 ≤ lag)
  let c := h.cnt
  { h with
    iss := { i with lag, last := now, stretches := i.stretches + (if stretch then 1 else 0), unmetOwn := false
                    unmetWait := false, limited := none }
    pwr := if boost then h.pwr.askBoost now else h.pwr
    cnt := { c with
      lagCur := satAdd 0 lag
      lagMax := bvMax c.lagMax (satAdd 0 lag)
      own := if own then satInc c.own else c.own
      wait := if stretch && !own then satInc c.wait else c.wait
      treads := if stretch then satAdd c.treads (lag - i.lag) else c.treads
      boostReq := if boost then satInc c.boostReq else c.boostReq
      groups := satInc c.groups
      limStretch := if stretch && i.limited.isSome && !own then satInc c.limStretch else c.limStretch
      limTreads := match i.limited with | some t => satAdd c.limTreads (now - t) | none => c.limTreads } }

/-- The hall stops for want of a good copy (05 R230). -/
def State.noCopy (s : State) (ph : Nat) (bad : List Nat) : State :=
  let s1 := s.updHall ph (fun h => { h with iss := { h.iss with noCopy := true, stopped := true } })
  let mask := bad.foldl (fun a g => a + 2 ^ g) 0
  let w := { s1.who ph 0 with g := 0xFF }
  (s1.each bad (fun s g => s.markSuspect (galIdx ph g))).raise (s1.galRec w 0x0203 0 true (BitVec.ofNat 64 mask))

/-- The group issues: LAND, operations, loops and counters. See 02 R40, R79; 03 R84. -/
def State.issueGroup (s : State) (ph : Nat) (sched : Word64) (lag : Nat) (gr : Group) (bad : List Nat) (b : Bun) : State :=
  let stretch := decide ((s.hall ph).iss.lag < lag)
  let own := s.ownAt ph gr
  let wait := s.waitAt ph gr
  let s0 := s.updHall ph (fun h =>
    let h1 := h.counted s.now lag own wait
    { h1 with iss := { h1.iss with sched } })
  let s1 := match (s.hall ph).mapped with
    | some k => if stretch then s0.updLand k (fun l => { l with stretches := l.stretches + 1 }) else s0
    | none => s0
  let s2 := s1.each gr (fun s e => State.runBundle s1 s ph e.1 e.2)
  let s3 := s2.each bad (fun s g => s.updGal (galIdx ph g) Gallery.poisonAll)
  let s4 := match b.landOf with
    | some f => opLand s3 (s3.who ph 0) f
    | none => s3
  s4.advance ph b

/-- The try at the tread to which the state has come. See 02 R42. -/
def State.tryGroup (s : State) (ph : Nat) (sched : Word64) (gr : Group) (bad : List Nat) (b : Bun) (lag : Nat) : State :=
  let own := s.ownUnmet ph gr
  let wait := s.waitUnmet ph gr
  if !s.groupFits ph gr then s
  else if own || wait then
    s.updHall ph (fun h => { h with iss := { h.iss with unmetOwn := own, unmetWait := wait } })
  else if s.limited ph gr then
    s.updHall ph (fun h => { h with iss := { h.iss with
      unmetOwn := false, unmetWait := true, limited := some (h.iss.limited.getD s.now) } })
  else s.issueGroup ph sched lag gr bad b

/-- ISSUE_GROUP on a running hall. -/
def State.nextGroup (s : State) (ph : Nat) : State :=
  let i := (s.hall ph).iss
  let live := gals16.filter (fun g => (s.gal (galIdx ph g)).cond != .fenced)
  if !live.all (fun g => (s.gal (galIdx ph g)).hasBundle i.slot i.pc) then
    s.updHall ph (fun h => { h with iss := { h.iss with unmetOwn := false, unmetWait := true } })
  else
    let pos := istorePos i.slot i.pc
    let s1 := s.each live (fun s g => s.checkIstore (s.who ph g) pos)
    let ent := fun (g : Nat) => SMap.get {} (s1.gal (galIdx ph g)).istore pos
    let bad := live.filter (fun g => (ent g).bad)
    match live.find? (fun g => !(ent g).bad) with
    | none => s1.noCopy ph bad
    | some g0 =>
      match decodeBundle (ent g0).bits with
      | none => s1
      | some b0 =>
        let good := live.filter (fun g => !(ent g).bad)
        let gr : Group := good.filterMap (fun g => (decodeBundle (ent g).bits).map (fun b => (g, b)))
        let sched := i.sched + BitVec.ofNat 64 b0.delta
        let k := s1.hallSlice ph
        let due := s1.rawOf k sched
        let s2 := s1.waitUntil (max due (i.last + 1))
        if s2.now < max due (i.last + 1) then s2 else s2.tryGroup ph sched gr bad b0 (s2.now - due)

/-- ISSUE_GROUP (R41). -/
def execIssueGroup (ph : Fin 64) (ups : List Upset) (s : State) : Out :=
  let h := s.hall ph.val
  .next (if h.st = .running && !h.iss.stopped && !h.iss.noCopy then (s.arise ups).nextGroup ph.val else s)

end Sys2Proof.Machine
end

