-- ==== Sys2Proof/Machine/Package.lean ====
section
/-! DEFINITION. Stairwells (06 R238 to R243) and the errors of gallery memories found outside issue (06 R265, 12 R487).
-/
namespace Sys2Proof.Machine

/-! ### Stairwell frames -/

/-- A stairwell, by its two ends. -/
def stwKey (a b : Nat) : Nat := min a b * 16 + max a b

/-- Places of a stairwell in one direction of one frame (06 Table 06.2). -/
def stwPlaces (a b : Nat) : Nat := if a = 9 ∨ b = 9 then 1 else 2

/-- Places taken in a frame: of a stairwell in one direction (src × 16 + dst), sent by a die (256 + die), received by a
die (272 + die). -/
def hopRoom (used : SMap Nat) (h : Nat × Nat) : Bool :=
  decide (SMap.get 0 used (h.1 * 16 + h.2) < stwPlaces h.1 h.2)
    && (4 ≤ h.1 || decide (SMap.get 0 used (256 + h.1) < 5)) && (4 ≤ h.2 || decide (SMap.get 0 used (272 + h.2) < 5))

/-- The places of one hop taken. -/
def hopTake (used : SMap Nat) (h : Nat × Nat) : SMap Nat :=
  let u := SMap.upd 0 used (h.1 * 16 + h.2) (· + 1)
  let u1 := if h.1 < 4 then SMap.upd 0 u (256 + h.1) (· + 1) else u
  if h.2 < 4 then SMap.upd 0 u1 (272 + h.2) (· + 1) else u1

/-- COPY lines moved through a relay die in a frame (288 + die): one line a tread (08 R347). -/
def StwLine.relayRoom (l : StwLine) (used : SMap Nat) : Bool :=
  match l.relay with
  | none => true
  | some d => decide (SMap.get 0 used (288 + d) < 2)

/-- One more of them, or with `shut` no other, as the lines of COPYs move in list order. -/
def StwLine.relayTake (l : StwLine) (shut : Bool) (used : SMap Nat) : SMap Nat :=
  match l.relay with
  | none => used
  | some d => if shut then SMap.set 0 used (288 + d) 2 else SMap.upd 0 used (288 + d) (· + 1)

/-- The lines of a list that find places, in order, those that do not, and the places then taken. -/
def stwPlace : SMap Nat → List StwLine → List StwLine × List StwLine × SMap Nat
  | used, [] => ([], [], used)
  | used, l :: ls =>
    if hopRoom used (l.src, l.dst) && l.relayRoom used then
      let r := stwPlace (l.relayTake false (hopTake used (l.src, l.dst))) ls
      (l :: r.1, r.2)
    else
      let r := stwPlace (l.relayTake true used) ls
      (r.1, l :: r.2.1, r.2.2)

/-- A line takes its place. A COPY reads its bay line as the line leaves its arcade, and a release frees bay A after its last line
(08 R337, R347). -/
def State.takePlace (s : State) (l : StwLine) : State :=
  let fly := fun (s : State) (l : StwLine) => { s with xport := { s.xport with flying := s.xport.flying ++ [{ l with due := s.now + 2 }] } }
  match l.dest with
  | .copy _ _ n sp sb last rel =>
    if l.relay.isNone then fly s l
    else
      let a := s.bay (sp * 128 + sb)
      let s1 := fly s { l with line := a.line n, poison := a.poison.getLsbD n }
      if last then s1.leaveBay sp sb rel else s1
  | .hall _ _ | .bayw _ _ _ _ _ | .store _ _ _ | .hst _ _ _ | .code _ _ _ | .token _ _ _ _ => fly s l

/-- The parity in TREAD of even slice treads (06 R238): that of the lowest admitted slice. Log 31 (DESIGN CHOICE). -/
def State.evenTread (s : State) : Nat :=
  match s.admitted with
  | [] => 0
  | k :: _ => s.rawOf k 0 % 2

/-- The places taken in the frame that begins at TREAD `t`, so far. -/
def Xport.usedIn (x : Xport) (t : Nat) : SMap Nat := if x.usedAt = t then x.used else []

/-- STAIRWELL_FRAME (R240): the next frame starts; scheduled lines, in the order of their issue, take places before unscheduled ones. While
TREAD stands still no second frame starts. -/
def execStairwellFrame (s : State) : Out :=
  let s0 := s.waitUntil s.xport.next
  if s0.now < s.xport.next then .next s
  else
    let s1 := s0.passTreads (if s0.clk.running then (s0.now + s0.evenTread) % 2 else 0)
    let w := s1.xport.waiting
    let r := stwPlace (s1.xport.usedIn s1.now) (w.filter (fun l => l.sched) ++ w.filter (fun l => !l.sched))
    let s2 := { s1 with xport := { s1.xport with waiting := r.2.1, next := s1.now + 2, used := r.2.2, usedAt := s1.now } }
    .next (s2.each r.1 (fun s l => s.takePlace l))

/-! ### Unscheduled traffic (03 R94; 06 R238, R240, R258) -/

/-- The TREAD at which the present stairwell frame began. -/
def State.frameStart (s : State) : Nat := s.now - (s.now + s.evenTread) % 2

/-- Places in the present frame for an unscheduled line that crosses `hops`, where the scheduled lines that wait leave them: those of a
frame that has not started yet take theirs first. -/
def State.unschedPlace (s : State) (hops : List (Nat × Nat)) : Option State :=
  let t := s.frameStart
  let used := s.xport.usedIn t
  let all := if s.now < s.xport.next then used else (stwPlace used (s.xport.waiting.filter (fun l => l.sched))).2.2
  let step := fun (u : Option (SMap Nat)) h => u.bind (fun m => if hopRoom m h then some (hopTake m h) else none)
  (hops.foldl step (some all)).map (fun _ =>
    { s with xport := { s.xport with used := hops.foldl hopTake used, usedAt := t } })

/-- Lines of one stack. -/
def stackLines : Nat := 0xA000000

/-- The stack of a line of HBM, numbered from offset 0. -/
def stackOfLine (n : Nat) : Nat := n / stackLines

/-- The pseudo-channel of a line (06 R249). -/
def pcOf (n : Nat) : Nat := n % stackLines % 64

/-- Whether an entry of a slot table reserves a pseudo-channel in the frame of this tread (06 R253); a refresh unit takes two frames. -/
def State.pcReserved (s : State) (c pc : Nat) : Bool :=
  (s.mc c).flights.any (fun f => f.segs.any (fun g => g.ents.any (fun x =>
    let d := s.sliceTread f.slice - (f.e0 + BitVec.ofNat 64 (16 * (g.base + slotFrame x)))
    let per := 16 * slotPeriod x
    let r := if per = 0 then 0 else min (d.toNat / per) (slotCount x - 1)
    (slotKind x = 1 || slotKind x = 2 || slotKind x = 3) && (slotMask x).getLsbD pc && decide (0 ≤ d.toInt)
      && decide (d.toNat - r * per < if slotKind x = 3 then 32 else 16))))

/-- A controller serves an unscheduled line on a pseudo-channel: nothing reserves it in this frame, no refresh holds it, and the
controller's lag is 0 (06 R258). -/
def State.pcOpen (s : State) (c pc : Nat) : Bool :=
  let m := s.mc c
  m.lagCur = 0 && m.waitLag = 0 && !m.selfref && decide (SMap.get 0 m.busy pc ≤ s.now) && !s.pcReserved c pc

/-- The last line of an unscheduled read of HBM, at offset `off`, on its way to `die` (9 is the atrium, 4 to 8 an arcade): its
pseudo-channel serves it in this frame, and it finds its places (06 R238, R240, R258). -/
def State.unschedRead (s : State) (off die : Nat) : Option State :=
  let c := stackOf off
  let d := dieOfStack c
  if s.pcOpen c (pcOf (off / 512)) then
    s.unschedPlace (if d = die then [] else if die = 9 then [(d, 9)] else [(d, 9), (9, die)])
  else none

/-- Port T of a gallery is free at this tread (03 R94). -/
def State.portFree (s : State) (gi : Nat) : Bool := freeFrom (SMap.get 0 (s.gal gi).busy 4) ≤ s.now

/-! ### Arrivals -/

/-- A line delivered to a store, if the gallery still takes traffic (03 R121, R122). A line of the memory delivery buffer (`mem`)
goes through port T at the first tread that it is free (05 Table 05.13); the line is pending until then, and until `floor`. -/
def State.deliverStore (s : State) (gi off : Nat) (bs : List Byte) (p mem : Bool) (floor : Nat) : State :=
  let s1 := s.updGal gi (fun g => { g with pend := g.pend.erase (off / 512) })
  if offStore off || (s1.gal gi).cond = .fenced then s1
  else
    let (s2, t) := if mem then s1.portT gi else (s1, s.now)
    (s2.updGal gi (fun g => { g with
        landAt := SMap.set 0 g.landAt (off / 512) (max t floor)
        memOut := if mem then t :: g.memOut.filter (fun x => s.now ≤ x) else g.memOut })).storeWrite
      gi off bs (p || s1.suspect gi)

/-- A COPY's line at its relay die goes on to the other arcade; there it is written, and bay B is complete once every line of the COPY
has come (08 R331, R347). -/
def State.landCopy (s : State) (l : StwLine) (p b n : Nat) : State :=
  if l.relay.isSome then s.sendLine { l with src := l.dst, dst := 4 + p / 6, fails := 0, due := 0 }
  else
    let more := (s.xport.waiting ++ s.xport.flying).any (fun x => x.copyTo = some (p, b))
    s.updBay (p * 128 + b) (fun y =>
      let z := y.copyIn n l.line l.poison
      if more then z else z.arrive s.now)

/-- A line reaches its destination. A token record of a line that comes poisoned is lost. Log 97 (DESIGN CHOICE). -/
def State.landLine (s : State) (l : StwLine) : State :=
  match l.dest with
  | .hall ph die =>
    if s.deadHall ph then s
    else
      let k := stairKey ph die
      { s with xport := { s.xport with
        stair := SMap.upd [] s.xport.stair k (fun b =>
          b ++ [{ line := l.line, poison := l.poison, from_ := max s.now l.floor }]) } }
  | .bayw gi baddr p b n => s.bayWrite gi baddr p b n l.line l.poison
  | .store gi off half =>
    s.deliverStore gi off ((bvBytes 512 l.line).take (if half then 64 else 512)) l.poison (l.src < 4) l.floor
  | .hst st id k =>
    s.updMc st (fun m => { m with reqs := m.reqs.map (fun r =>
      if r.id = id then { r with missing := r.missing - 1, lines := r.lines.set k (l.line, l.poison) } else r) })
  | .code gi f i => s.deliverCode gi f i l.line l.poison l.floor
  | .token gi baddr p r => if l.poison then s else s.toOutbox gi baddr p r
  | .copy p b n _ _ _ _ => s.landCopy l p b n

/-- A stairwell marked failed (06 R243, 12 Table 12.2). -/
def State.failStairwell (s : State) (l : StwLine) : State :=
  let a := min l.src l.dst
  let b := max l.src l.dst
  let s1 := { s with xport := { s.xport with failed := stwKey a b :: s.xport.failed } }
  let src := if b < 4 then srcHall (16 * a) else if b < 9 then srcArc (b - 4) else none
  s1.raise { cause := 0x0206, src, errs := s1.runningSlices, cls := 3, detail := BitVec.ofNat 64 (a + 16 * b)
             slice := match s1.runningSlices with | [k] => some k | _ => none }

/-- The lines in flight without line `k`, which arrives at TREAD `t`; an arcade stairwell buffer that was full has room again. -/
def Xport.leave (x : Xport) (l : StwLine) (k t : Nat) : Xport :=
  { x with flying := x.flying.eraseIdx k
           roomAt := if l.src < 4 && 4 ≤ l.dst && 32 ≤ x.between l.src l.dst then SMap.set 0 x.roomAt (roomKey l.src l.dst) t
             else x.roomAt }

/-- STAIRWELL_LINE_ARRIVAL (R243): line `k` in flight arrives; `crcOk` is what its CRC-32 gives. -/
def execStairwellLineArrival (k : Nat) (crcOk : Bool) (s : State) : Out :=
  match s.xport.flying[k]? with
  | none => .next s
  | some l =>
    let s0 := s.waitUntil (max l.due l.floor)
    let gone := { s0 with xport := s0.xport.leave l k s0.now }
    let dead := { l with line := 0, poison := true }
    if s0.xport.failed.contains (stwKey l.src l.dst) then .next (gone.landLine dead)
    else if crcOk then .next (gone.landLine l)
    else
      let n := { l with fails := l.fails + 1, due := s0.now + 8 }
      if n.fails < 4 then
        .next { s0 with sec := { s0.sec with stwResend := satInc s0.sec.stwResend }
                        xport := { s0.xport with flying := s0.xport.flying.set k n } }
      else .next ((gone.failStairwell l).landLine dead)

/-! ### Scrubbing and storms -/

/-- The first multiple of `i` from `t` on. -/
def ceilTo (i t : Nat) : Nat := (t + i - 1) / i * i

/-- The galleries of a hall that are scrubbed. -/
def State.scrubGals (s : State) (ph : Nat) : List Nat :=
  (List.range 16).filter (fun g => (s.gal (galIdx ph g)).cond != .fenced)

/-- The TREAD of a hall's next scrub read: the first multiple of the interval that has had none, and after it the first tread at which
the schedule leaves port T of every gallery free (03 R94). -/
def State.scrubTime (s : State) (ph : Nat) : Nat :=
  let h := s.hall ph
  (s.scrubGals ph).foldl (fun t g => max t (freeFrom (SMap.get 0 (s.gal (galIdx ph g)).busy 4)))
    (ceilTo h.reg.scrubInt.toNat (max s.now h.iss.scrubNext))

/-- STORE_SCRUB_READ (R265): one line of the store of each gallery of a running or idle hall is read and checked, once
every interval, in ascending line order. -/
def execStoreScrubRead (ph : Fin 64) (ups : List Upset) (s : State) : Out :=
  let h := s.hall ph.val
  if h.reg.scrubEn && (h.st = .running || h.st = .idle) then
    let s0 := s.waitUntil (s.scrubTime ph.val)
    if s0.now < s.scrubTime ph.val then .next s
    else
      let line := h.iss.scrubPtr % 2560
      let s1 := (s0.arise ups).each (s.scrubGals ph.val) (fun s g => s.checkStore { ph := ph.val, g } line)
      .next (s1.updHall ph.val (fun h => { h with iss := { h.iss with
        scrubPtr := (line + 1) % 2560, scrubNext := ceilTo h.reg.scrubInt.toNat (max s.now h.iss.scrubNext) + 1 } }))
  else .next s

/-- CORRECTED_ERROR_STORM (R487): a gallery whose corrected errors of one storm window exceed the limit becomes
suspect, with one record for the window; the detail names the kind of the errors, one of the kinds where there are several. Log 27 (DESIGN CHOICE). -/
def execCorrectedErrorStorm (ph : Fin 64) (g : Fin 16) (s : State) : Out :=
  let gi := galIdx ph.val g.val
  let x := s.gal gi
  let n := fun (k : Nat) => SMap.get 0 x.stormCe k
  let total := n 0 + n 1 + n 2
  if x.stormWin = s.now / 2 ^ 20 && !x.stormDone && s.flt.storm.toNat < total then
    let kind := (oneOf [27, s.now, gi] ((List.range 3).filter (fun k => n k ≠ 0))).getD 0
    let s1 := s.updGal gi (fun x => { x with stormDone := true })
    let w : Who := { ph := ph.val, g := g.val }
    .next ((s1.markSuspect gi).raise
      (s1.galRec w 0x0201 0 true (BitVec.ofNat 64 (min total 0xFFFF + 65536 * kind))))
  else .next s

end Sys2Proof.Machine
end

