-- ==== Sys2Proof/Machine/Stair.lean ====
section
/-! DEFINITION. The stair controllers between landings: tokens and branch values arriving (03 R108 to R113) and flight
heads fetched (03 R99 to R103, R115).
-/
namespace Sys2Proof.Machine

/-! ### Tokens -/

/-- The slice whose step a token concerns: that of the flight it names when that is resident, else that of its source
(03 R111). -/
def State.tokSlice (s : State) (t : Token) : Nat :=
  match if t.branch then none else s.flight t.flight with
  | some f => f.slice.toNat
  | none => t.slice.toNat

/-- Ordinal `o` lies before ordinal `k`, by less than 2^31 (02 R57). -/
def ordBefore (o k : Word) : Bool := 0 < (k - o).toNat && (k - o).toNat < 2 ^ 31

/-- The launch set of ordinal `o` of slice `k` is final (03 R110). -/
def State.ordFinal (s : State) (k : Nat) (o : Word) : Bool :=
  let x := s.sl k
  x.started && (ordBefore o x.land.ord || (o = x.land.ord && x.land.final))

/-- A schedule fault about a token. -/
def State.tokFault (s : State) (cause : BitVec 16) (flight : Nat) (ord : Word) (what : Nat) (k : Nat) : State :=
  let d : Word64 := ord ++ BitVec.ofNat 32 (if cause = 0x0109 then what + 4 * flight else flight)
  s.raise { FRec.schedule cause none (some k) d with flight := BitVec.ofNat 16 flight }

/-- Every stair controller counts an accepted token and its largest occupancy (03 Table 03.7). -/
def State.countToken (s : State) (n : Nat) : State :=
  s.each ((List.range 64).filter (fun ph => (s.hall ph).st != .absent)) (fun s ph => s.updHall ph (fun h =>
    { h with cnt := { h.cnt with tokens := satInc h.cnt.tokens, tokqMax := bvMax h.cnt.tokqMax (satAdd 0 n) } }))

/-- A token reaches all 64 stair controllers: stale, overflow, or held in the token queue (03 R108 to R111). A branch
value is kept for its ordinal (02 R65); one for an ordinal whose launch set is final can select nothing, and a second one for an ordinal is not taken. Log 109 (DESIGN
CHOICE). -/
def State.deliverToken (s : State) (t : Token) : State :=
  let k := s.tokSlice t
  if s.ordFinal k t.ord then
    if t.branch then s else s.tokFault 0x0108 t.flight t.ord 0 k
  else if t.branch then
    s.updSl k (fun x => if x.bvals.any (fun b => b.1 = t.ord) then x else { x with bvals := x.bvals ++ [(t.ord, t.value)] })
  else if 256 ≤ s.stair.queue.length then s.tokFault 0x0109 t.flight t.ord 0 k
  else
    let s1 := { s with stair := { s.stair with queue := s.stair.queue ++ [t] } }
    s1.countToken s1.stair.queue.length

/-- TOKEN_DELIVERY (R108): token `k` on its way arrives, that of a hall in the as-A0 mode no earlier than its budget (05 R228). -/
def execTokenDelivery (k : Nat) (s : State) : Out :=
  match s.stair.transit[k]? with
  | none => .next s
  | some t =>
    let s1 := if t.floor then s.waitUntil t.due else s
    .next (({ s1 with stair := { s1.stair with transit := s1.stair.transit.eraseIdx k } }).deliverToken t)

/-! ### Flight heads -/

/-- The share of a flight that hall `ph` carries. -/
def State.shareOn (s : State) (ph : Nat) (f : Flight) : Option Share :=
  let h := s.hall ph
  if h.mapped = some f.slice.toNat then f.shares.find? (fun x => x.vh.toNat = h.vh) else none

/-- Launch candidates with a share on hall `ph`, ascending (03 R103, 11 R461). -/
def State.candidatesOn (s : State) (ph : Nat) : List Nat :=
  (s.resident.filter (fun e => e.2.cand && (s.shareOn ph e.2).isSome)).map (fun e => e.1)

/-- The head slot of a flight. -/
def Hall.slotOf (h : Hall) (f : Nat) : Option Nat :=
  let l := (List.range h.heads.length).filter (fun i => (h.heads.getD i {}).flight = some f)
  l.head?

/-- The head of flight `f` is in the hall's galleries. -/
def Hall.hasHead (h : Hall) (f : Nat) : Bool := h.heads.any (fun x => x.flight = some f && x.present)

/-- The head slot for a new head of flight `f`: an empty one, else that of the highest flight above `f` that does not run
on the hall. -/
def Hall.pickSlot (h : Hall) (f : Nat) : Option Nat :=
  let l := h.heads ++ List.replicate (4 - h.heads.length) {}
  let idx := List.range 4
  match idx.find? (fun i => (l.getD i {}).flight.isNone) with
  | some i => some i
  | none =>
    let fl := fun (i : Nat) => ((l.getD i {}).flight).getD 0
    let drop := idx.filter (fun i => f < fl i && !(h.st = .running && h.iss.flight = fl i))
    drop.foldl (fun best i => match best with
      | none => some i
      | some j => if fl j < fl i then some i else some j) none

/-- HEAD_FETCH (R103): the stair controller asks for the head of the lowest launch candidate that it does not hold. -/
def execHeadFetch (ph : Fin 64) (s : State) : Out :=
  let h := s.hall ph.val
  if h.st = .idle || h.st = .running then
    match (s.candidatesOn ph.val).find? (fun f => (h.slotOf f).isNone) with
    | none => .next s
    | some f =>
      match h.pickSlot f with
      | none => .next s
      | some i =>
        let l := h.heads ++ List.replicate (4 - h.heads.length) {}
        .next (s.updHall ph.val (fun h => { h with heads := l.set i { flight := some f, present := false } }))
  else .next s

/-- A head slot with nothing in it. -/
def clearSlot (slot : Nat) (m : SMap IBundle) : SMap IBundle :=
  m.filter (fun e => e.1 < 1024 + 256 * slot || 1280 + 256 * slot ≤ e.1)

/-- The head of a stream in the instruction store of a gallery, with fresh check bits; nothing of an earlier head stays in its slot
(03 R103). -/
def State.loadHead (s0 : State) (gi slot code len : Nat) : State :=
  let s := s0.updGal gi (fun g => { g with istore := clearSlot slot g.istore })
  s.each (List.range (min 256 len)) (fun s b =>
    let bits : Bundle := BitVec.ofNat 256 (leNat (s.readBytes (code + 32 * b) 32))
    let pos := 1024 + 256 * slot + b
    { s.updGal gi (fun g => { g with istore := SMap.set {} g.istore pos { index := b, bits, held := true } }) with
      upsets := s.upsets.filter (fun u => !inIstore gi pos u.site) })

/-- The last byte of the head of a share, in the highest of the galleries that take it. -/
def headEnd (sh : Share) (live : List Nat) : Nat :=
  let g := live.getLast?.getD 0
  sh.code.getD g 0 + 32 * min 256 (sh.streams.getD g []).length - 1

/-- HEAD_FETCH_COMPLETE (R115): the head in slot `h` becomes present in the galleries of the share, when its last line finds an
unreserved slot and its places (R103, 06 R258). Log 80 (DESIGN CHOICE). -/
def execHeadFetchComplete (ph : Fin 64) (h : Fin 4) (s : State) : Out :=
  let x := s.hall ph.val
  let e := x.heads.getD h.val {}
  match e.flight with
  | none => .next s
  | some f =>
    match (s.flight f).bind (s.shareOn ph.val) with
    | none => .next s
    | some sh =>
      if e.present then .next s
      else
        let live := (List.range 16).filter (fun g => (s.gal (galIdx ph.val g)).cond != .fenced)
        match s.unschedRead (headEnd sh live) (dieOfHall ph.val) with
        | none => .next s
        | some s0 =>
          let s1 := s0.each live (fun s g =>
            s.loadHead (galIdx ph.val g) h.val (sh.code.getD g 0) ((sh.streams.getD g []).length))
          .next (s1.updHall ph.val (fun x => { x with heads := x.heads.set h.val { flight := some f, present := true } }))

end Sys2Proof.Machine
end

