-- ==== Sys2Proof/Machine/LandEnd.lean ====
section
/-! DEFINITION. What happens at the end E of a landing: flights end, launch or are stopped by an abort, agents restart,
halls sleep, and the landing record is written (02 R64, R72, R76; 03 R86, R87, R114 to R117; 05 R185; 08 R333; 10 R423;
12 R494, R495; 13 R519, R522).
-/
namespace Sys2Proof.Machine

/-- The pace point of a pace identifier (10 Table 10.1). -/
def pidPace (pid : BitVec 16) : BitVec 2 := (pid - 1).truncate 2

/-- A running flight ends at its present landing: the entry has end set, or is the last (10 R422, Table 10.6). -/
def Flight.endsHere (f : Flight) : Bool :=
  match f.run with
  | none => false
  | some r => (f.ent r.here).flags.getLsbD 3 || f.lands.length ≤ r.here + 1

/-- Flights of slice `k`, resident, ascending. -/
def State.flightsOf (s : State) (k : Nat) : List (Nat × Flight) := s.resident.filter (fun e => e.2.slice.toNat = k)

/-- The halls that carry virtual halls of a flight's shares on the part. -/
def State.shareHalls (s : State) (f : Flight) : List Nat :=
  (s.hallsOf f.slice.toNat).filter (fun ph => f.shares.any (fun x => x.vh.toNat = (s.hall ph).vh))

/-- Virtual halls of a flight's shares that no hall of the part carries. -/
def State.unmapped (s : State) (f : Flight) : List Nat :=
  (f.shares.map (fun x => x.vh.toNat)).filter (fun v =>
    !(s.hallsOf f.slice.toNat).any (fun ph => (s.hall ph).vh = v))

/-! ### Flights that end -/

/-- A head slot in which an uncorrectable error has been found (03 R103). -/
def State.headBad (s : State) (ph i : Nat) : Bool :=
  (List.range 16).any (fun g => (s.gal (galIdx ph g)).istore.any (fun e =>
    e.2.bad && decide (1024 + 256 * i ≤ e.1 ∧ e.1 < 1280 + 256 * i)))

/-- Bad heads of a hall dropped. -/
def State.dropBadHeads (s : State) (ph : Nat) : State :=
  let bad := (List.range 4).filter (fun i => s.headBad ph i)
  s.updHall ph (fun h => { h with heads := bad.foldl (fun l i => l.set i {}) h.heads })

/-- A running flight ends on a hall: the hall becomes idle unless it is testing or withdrawn. -/
def State.idleHall (s : State) (ph : Nat) : State :=
  (s.updHall ph (fun h =>
    { h with
      st := if h.st = .running then .idle else h.st
      iss := { h.iss with flight := 0, stopped := false, noCopy := false, arrLag := 0, lag := 0, unmetOwn := false
                          unmetWait := false, limited := none } })).dropBadHeads ph

/-- The halls on which a flight runs. -/
def State.hallsRunning (s : State) (f : Nat) : List Nat :=
  (SMap.keys s.halls).filter (fun ph => (s.hall ph).st = .running && (s.hall ph).iss.flight = f)

/-- Requests of a flight that its controllers have not served are dropped, with what waits for them. -/
def State.dropRequests (s : State) (f : Nat) : State :=
  let s1 := s.each (List.range (stacksOf s.cfg.grade)) (fun s c =>
    s.updMc c (fun m => { m with reqs := m.reqs.filter (fun x => x.flight ≠ f) }))
  s1.each (s.hallsRunning f) (fun s ph => s.each (List.range 16) (fun s g =>
    s.updGal (galIdx ph g) (fun x => { x with pend := [] })))

/-- A running flight ends: its halls, its slot tables and its timetable streams (03 R86, 08 R333). Its controllers have issued nothing
since its last landing, so their lag is 0 (02 R45). -/
def State.endFlight (s : State) (f : Nat) : State :=
  let s1 := (s.dropRequests f).each (s.hallsRunning f) (fun s ph => s.idleHall ph)
  let s2 := s1.each (List.range (stacksOf s.cfg.grade)) (fun s c =>
    s.updMc c (fun m => if m.flights.any (fun x => x.flight = f) then
      { m with flights := m.flights.filter (fun x => x.flight ≠ f), lagCur := 0, waitLag := 0 } else m))
  let s3 := s2.each (SMap.keys s2.ctxs) (fun s c =>
    s.updCtx c (fun x => { x with
      streams := x.streams.filter (fun y => y.flight ≠ f)
      awaits := x.awaits.filter (fun y => y.pid.toNat / 2 ^ 20 ≠ f) }))
  let s4 := s3.each (SMap.keys s3.arcs) (fun s a =>
    s.updArc a (fun x => { x with combs := x.combs.filter (fun y => y.pid.toNat / 2 ^ 20 ≠ f) }))
  s4.updFlight f (fun x => { x with run := none, offHalls := [] })

/-! ### Launch (03 R116, R87; 05 R185) -/

/-- No code fetch of the present run has filled a place of the running area yet (03 R102). The store's bits stay. -/
def unfetched (m : SMap IBundle) : SMap IBundle :=
  (m.map (fun e => if e.1 < 1024 then (e.1, { e.2 with held := false }) else e)).filter (fun e => e.2 ≠ {})

/-- The registers, banks, tiles and flags of a gallery at a launch (05 R185). -/
def Gallery.launched (g : Gallery) : Gallery :=
  { g with
    istore := unfetched g.istore
    v := [], x := [], p := [], f := [], banks := [], active := {}, shadow := {}, loops := [], inflight := [], arith := 0
    fetched := 256 }

/-- The vcode to which a hall slews at a step to pace point `p`: where it last settled there, else the value of the
configuration block (13 R520). -/
def State.settledVcode (s : State) (ph p : Nat) : Byte :=
  let cfg : Byte := BitVec.ofNat 8 (SMap.get 0 s.cfg.settle (ph * 4 + p))
  match (s.hall ph).pwr.settled[p]? with
  | some v => if v = 0xFF then cfg else v
  | none => cfg

/-- A hall launches flight `f`, its first bundle due from slice tread `e`; a pace-point step has been spent where the
flight names another pace point (13 R520). Log 120 (DESIGN CHOICE). -/
def State.launchHall (s : State) (ph f : Nat) (pid : BitVec 16) (e : Word64) : State :=
  let vc := s.settledVcode ph (pidPace pid).toNat
  let s1 := s.each (List.range 16) (fun s g => s.updGal (galIdx ph g) Gallery.launched)
  s1.updHall ph (fun h =>
    { h with
      st := .running
      iss := { h.iss with flight := f, slot := (h.slotOf f).getD 0, pc := 0, sched := e - 1, lag := 0, arrLag := 0
                          stopped := false, noCopy := false, unmetOwn := false, unmetWait := false, limited := none }
      pwr := if h.reg.pace = pidPace pid then h.pwr else { h.pwr with vcode := vc, boost := false, hi := 0, short := 0 }
      reg := { h.reg with pid, pace := pidPace pid }
      cnt := { h.cnt with launches := satInc h.cnt.launches } })

/-- A timetable entry decoded (08 Table 08.6). -/
def TtEnt.ofBits (x : BitVec 256) : TtEnt :=
  let f := fun (o n : Nat) => x.toNat / 2 ^ (8 * o) % 2 ^ n
  { t := f 0 32, period := f 4 16, count1 := f 6 16, slice := f 8 8, op := f 9 4, red := f 9 6 / 16
    rel := f 9 7 / 64 = 1, bayA := f 10 7, portA := f 10 10 / 128, bayB := f 12 7, portB := f 12 10 / 128
    arcB := f 12 13 / 1024, relay := f 12 15 / 8192, mask := BitVec.ofNat 12 (f 14 12), pid := BitVec.ofNat 32 (f 16 32)
    size := f 20 16, vh := f 22 6, en := f 22 7 / 64 = 1, off := f 24 64 }

/-- A segment of a stream. -/
def Seg.start (base : Word64) (es : List (BitVec 256)) : Seg :=
  { base, ents := es.map TtEnt.ofBits, prog := es.map (fun _ => 0) }

/-- The context of slice `k` on a link (port × 2 + half of a timetable section). -/
def State.sliceCtx (s : State) (k l : Nat) : Option Nat :=
  (s.ctxsOf (s.lowPort (l / 2))).find? (fun c =>
    (s.ctx c).slice.toNat = k && (s.ctx c).half = decide (l % 2 = 1))

/-- The first segment of a slot table: base frame 0, at most 1,024 entries (06 R254). -/
def SlotSeg.first (es : List (BitVec 128)) : SlotSeg := { base := 0, ents := es.take 1024, prog := (es.take 1024).map (fun _ => 0) }

/-- The slot tables and streams of a flight start at `e` (06 R251, 08 R333), with their first segments: the first 1,024 and the first 64
entries (06 R254, 08 R334). Log 33 (DEDUCED). -/
def State.startTables (s : State) (f : Nat) (fl : Flight) (e : Word64) : State :=
  let s1 := s.each fl.slotTabs (fun s t =>
    s.updMc t.1 (fun m => { m with flights := m.flights ++
      [{ flight := f, slice := fl.slice.toNat, e0 := e, segs := [SlotSeg.first t.2] }] }))
  s1.each fl.tts (fun s t =>
    match s.sliceCtx fl.slice.toNat t.1 with
    | none => s
    | some c => s.updCtx c (fun x => { x with streams := x.streams ++
        [{ flight := f, segs := [Seg.start e (t.2.take 64)], fetch := none }] }))

/-- The launch-shape check (10 R423). -/
def State.checkShape (s : State) (k f : Nat) (fl : Flight) : State :=
  let l := (s.sl k).land
  let e := fl.ent 0
  if l.w = 4 * (e.w4.toNat + 1) ∧ l.d = 4 * e.d4.toNat then s
  else s.raise { FRec.schedule 0x0119 none (some k) (l.ord ++ BitVec.ofNat 32 (s.sl k).id.pos) with
                 flight := BitVec.ofNat 16 f }

/-- A virtual hall of a launched share that no hall carries (03 R114, 08 R364). -/
def State.unmappedFault (s : State) (k f v : Nat) : State :=
  s.raise { FRec.schedule 0x011D none (some k) ((s.sl k).land.ord ++ BitVec.ofNat 32 (v + 65536 * f)) with
            flight := BitVec.ofNat 16 f }

/-- A flight of the launch set launches at E: on its halls, or without halls when one of them is withdrawn or testing
(03 R87, R116). -/
def State.launchFlight (s : State) (k f : Nat) : State :=
  match s.flight f with
  | none => s
  | some fl =>
    let l := (s.sl k).land
    let e := l.a + BitVec.ofNat 64 l.w
    let phs := s.shareHalls fl
    let out := phs.any (fun ph => (s.hall ph).st = .withdrawn || (s.hall ph).st = .testing)
    let un := s.unmapped fl
    let run : Run := { k0 := l.ord, base := l.a - (fl.ent 0).a.signExtend 64, e0 := e.truncate 64, idx := 0, woHalls := out }
    let s1 := s.setFlight f (some { fl with
      received := fl.received - fl.need, run := some run
      offHalls := if out then fl.shares.map (fun x => x.vh.toNat) else un })
    let s2 := if out then s1.notRunning k
      else s1.each phs (fun s ph => s.launchHall ph f fl.pid e)
    let s3 := s2.each un (fun s v => s.unmappedFault k f v)
    (s3.startTables f fl e).checkShape k f fl

/-! ### Agents restart -/

/-- The agents of the slice restart at E with lag `late` (02 R64, R73). -/
def State.restart (s : State) (k late : Nat) : State :=
  let e := (s.sl k).land.a + BitVec.ofNat 64 (s.sl k).land.w
  let s1 := s.each (s.hallsOf k) (fun s ph => s.updHall ph (fun h =>
    { h with
      iss := if h.st = .running then
          { h.iss with lag := late, arrLag := 0, stopped := h.iss.noCopy, sched := e - 1 }
        else { h.iss with lag := 0, arrLag := 0, stopped := false }
      cnt := { h.cnt with lagCur := satAdd 0 late, lagMax := bvMax h.cnt.lagMax (satAdd 0 late) }
      pwr := { h.pwr with boost := false } }))
  let s2 := s1.each (s1.mcAgents k) (fun s c => s.updMc c (fun m =>
    { m with lagCur := satAdd 0 late, lagMax := bvMax m.lagMax (satAdd 0 late), arrLag := 0, stopped := false }))
  s2.each (s2.ctxAgents k) (fun s c => s.updCtx c (fun x =>
    { x with lagCur := satAdd 0 late, lagMax := bvMax x.lagMax (satAdd 0 late), arrLag := 0 }))

/-! ### Sleep (13 R522) -/

/-- A sleep request is pending for a hall. -/
def State.sleepAsked (s : State) (ph : Nat) : Bool := s.pwr.sleep.getLsbD ph

/-- A hall goes to sleep: its regulator is off, its heads are dropped and its stores lose their contents. -/
def State.sleepHall (s : State) (ph : Nat) : State :=
  let s1 := s.updHall ph (fun h => ({ h with st := .asleep, pwr := { h.pwr with vcode := 0, boost := false } }).dropHeads)
  let s2 := { s1 with pwr := { s1.pwr with sleep := s1.pwr.sleep &&& ~~~(BitVec.ofNat 64 (2 ^ ph)) } }
  s2.undefine (storeAddr (galIdx ph 0) 0) (storeAddr (galIdx ph 0) 0 + 0x2000000)

/-- Idle halls with a pending request sleep at the end of a landing of their slice; unmapped ones at any slice's. -/
def State.sleepHalls (s : State) (k : Nat) : State :=
  s.each ((List.range 64).filter (fun ph =>
    let h := s.hall ph
    s.sleepAsked ph && h.st = .idle && (h.mapped = some k || h.mapped.isNone))) (fun s ph => s.sleepHall ph)

/-! ### Landing record (02 R76) -/

/-- The 64 bytes of the landing record. -/
def State.landRecord (s : State) (k : Nat) (flags : BitVec 16) : BitVec 512 :=
  let l := (s.sl k).land
  let b16 := fun (n : Nat) => BitVec.ofNat 16 (min n 0xFFFF)
  (0#64) ++ BitVec.ofNat 64 l.readyAt ++ (s.sl k).offset ++ l.holdLen ++ BitVec.ofNat 32 l.stretches
    ++ b16 l.others ++ BitVec.ofInt 16 l.err ++ b16 l.portLag ++ b16 l.mcLag ++ (0#8) ++ BitVec.ofNat 8 l.hallPh
    ++ b16 l.hallLag ++ b16 l.d ++ b16 l.w ++ l.a ++ flags ++ (0#8) ++ BitVec.ofNat 8 k ++ l.ord

/-- The ring of landing records set: where its place or its size changes, it holds no record yet. Log 100 (DEDUCED). -/
def State.setRing (s : State) (t : Tim) : State :=
  { s with tim := if t.lrecBase ≠ s.tim.lrecBase ∨ t.lrecLog ≠ s.tim.lrecLog then { t with lrecFrom := t.lrecN } else t }

/-- The record written to the ring of TIM_LREC_BASE and TIM_LREC_SIZE. -/
def State.writeLandRecord (s : State) (k : Nat) : State :=
  if s.tim.lrecEn then
    let n := s.tim.lrecN
    let size := 2 ^ s.tim.lrecLog.toNat
    let l := (s.sl k).land
    let fl := l.flags ||| BitVec.ofNat 16
      ((if l.released then 1 else 0) + (if l.raised then 2 else 0) + (if l.branch then 4 else 0)
        + (if l.commit then 8 else 0) + (if l.quiesce then 16 else 0)
        + (if (s.sl k).refLost || s.tim.refLost then 32 else 0) + (if size ≤ n - s.tim.lrecFrom then 8192 else 0))
    let s1 := s.writeBytes (s.tim.lrecBase.toNat * 2 ^ 21 + n % size * 64) (bvBytes 64 (s.landRecord k fl))
    { s1 with tim := { s1.tim with lrecN := n + 1 } }
  else s

/-! ### Leaving -/

/-- The abort outcome of the present commit landing (12 R494). -/
def SliceErr.aborts (e : SliceErr) (l : Landing) : Bool :=
  l.commit && (match e.outcome with | some o => o.abort | none => false)

/-- An abort stop (12 R494): flights of the slice end, tokens and received counts are discarded, arrivals are dropped
for 4,096 treads from E, and suspect galleries of the slice's halls are walked (12 R495). Log 119 (DEDUCED). -/
def State.abortStop (s : State) (k : Nat) : State :=
  let s1 := s.each (s.flightsRunning k) (fun s e => s.endFlight e.1)
  let s2 := s1.each (s1.flightsOf k) (fun s e => s.updFlight e.1 (fun f => { f with received := 0 }))
  let s3 := { s2 with stair := { s2.stair with queue := s2.stair.queue.filter (fun t => s2.tokSlice t ≠ k) } }
  let s4 := s3.each (s3.ctxAgents k) (fun s c => s.updCtx c (fun x => { x with streams := [], awaits := [] }))
  let walks := (s4.hallsOf k).flatMap (fun ph => ((List.range 16).map (galIdx ph)).filter (fun gi =>
    (s4.gal gi).cond = .suspect && (s4.gal gi).walk.isNone
        && ((s4.hall ph).st = .idle || (s4.hall ph).st = .running || (s4.hall ph).st = .testing)))
  let s5 := s4.each walks (fun s gi => s.startWalk gi)
  s5.updSl k (fun x => { x with err := { x.err with dropTo := s.rawOf k (x.land.a + BitVec.ofNat 64 x.land.w) + 4096, noticeDue := true } })

/-- The TREAD at which slice `k` stands at the end tread E of its landing with the alignment correction applied: a part that is behind
leaves |e| treads sooner, one that is ahead e treads later (02 R35). Log 19 (DEDUCED). -/
def State.endAt (s : State) (k : Nat) : Nat :=
  let l := (s.sl k).land
  ((s.rawOf k (l.a + BitVec.ofNat 64 l.w) : Int) + l.err).toNat

/-- The landing is left at its end tread, `late` treads late (02 R64, R72, R73; 12 R490). -/
def State.leaveLanding (s : State) (k late : Nat) : State :=
  let x := s.sl k
  let l := x.land
  let abort := x.err.aborts l
  let e := l.a + BitVec.ofNat 64 l.w
  -- alignment correction (02 R35)
  let s1 := s.updSl k (fun x => { x with
    epoch := x.epoch + BitVec.ofInt 64 l.err, epochDiff := x.epochDiff + BitVec.ofInt 64 l.err })
  -- flights that end; the rest have taken this landing's index
  let ending := (s1.flightsRunning k).filter (fun f => f.2.endsHere)
  let s2 := if abort then s1.abortStop k
    else
      let t := s1.each ending (fun s f => s.endFlight f.1)
      let t1 := t.each (t.flightsRunning k) (fun s f =>
        s.updFlight f.1 (fun f => { f with run := f.run.map (fun r => { r with idx := r.idx + 1 }) }))
      t1.each l.launch (fun s f => s.launchFlight k f)
  let hold := l.released
  let s3 := (s2.restart k late).sleepHalls k
  let s4 := s3.each (s3.hallAgents k) (fun s ph => if hold then
    s.updHall ph (fun h => { h with cnt := { h.cnt with holds := satInc h.cnt.holds } }) else s)
  let s5 := s4.writeLandRecord k
  let s6 := if hold then { s5 with tim := { s5.tim with
      holdCount := satInc s5.tim.holdCount, holdTreads := satAdd s5.tim.holdTreads l.holdLen.toNat } } else s5
  s6.updSl k (fun x => { x with
    phase := if (s6.flightsRunning k).isEmpty then .idle else .running
    nextA := e
    refLost := false
    bvals := x.bvals.filter (fun b => !(b.1 = l.ord || ordBefore b.1 l.ord))
    land := { x.land with stretches := 0, holdPend := false, mcAt := [] }
    reports := []
    err := { x.err with outcome := none }
    tel := { x.tel with
      lastOrd := l.ord, anyEnded := true
      holds := if hold then satInc x.tel.holds else x.tel.holds
      holdTreads := if hold then satAdd x.tel.holdTreads l.holdLen.toNat else x.tel.holdTreads
      stretches := satAdd x.tel.stretches l.stretches
      lag := satAdd 0 l.hallLag } })

end Sys2Proof.Machine
end

