-- ==== Sys2Proof/Machine/Commit.lean ====
section
/-! DEFINITION. Commit landings (06 R272, R273; 12 R488 to R494): the regions of a slice, the commit report, the master's
decision and the outcome. Hold marks and releases of 02 R67 to R75, with the class C control parcels that an arcade
relays (08 R358, R359).
-/
namespace Sys2Proof.Machine

/-! ### Members and the slice tree -/

/-- Members of a slice. -/
def Slice.members (x : Slice) : Nat := 2 ^ x.id.k

/-- The part is the master of slice `k` (07 R313). -/
def State.isMaster (s : State) (k : Nat) : Bool := masterChip (s.sl k).id = s.cfg.chip.toNat

/-- A control parcel put to the relay along the slice tree (08 R358). -/
def State.relay (s : State) (c : CtlParcel) : State := { s with relays := s.relays ++ [c] }

/-- The chip that made an arrived parcel, its kind and its slice (08 Table 08.2). -/
def hdrSlice (h : BitVec 128) : Nat := (h.extractLsb' 0 8).toNat
def hdrClass (h : BitVec 128) : Nat := (h.extractLsb' 14 2).toNat
def hdrKind (h : BitVec 128) : Nat := (h.extractLsb' 8 6).toNat
def hdrLen (h : BitVec 128) : Nat := (h.extractLsb' 16 16).toNat
def hdrChip (h : BitVec 128) : Nat := (h.extractLsb' 32 16).toNat
def hdrMap (h : BitVec 128) : BitVec 16 := h.extractLsb' 48 16
def hdrPid (h : BitVec 128) : Word := h.extractLsb' 64 32
def hdrCount (h : BitVec 128) : Nat := (h.extractLsb' 96 16).toNat

/-- Payloads of control parcels (08 Table 08.11, 12 Table 12.3), least significant byte first. -/
def holdBytes (r : HoldReport) : List Byte :=
  bvBytes 2 r.chip ++ [r.cause, 0] ++ bvBytes 4 r.ordinal ++ bvBytes 8 r.e ++ bvBytes 8 r.ready
def releaseBytes (r : Release) : List Byte :=
  bvBytes 4 r.ordinal ++ bvBytes 4 r.h ++ [if r.abort then 1 else 0, 0, 0, 0]
def reportBytes (r : CommitReport) : List Byte :=
  bvBytes 2 r.chip ++ [r.status, r.snapshot] ++ bvBytes 4 r.ordinal ++ bvBytes 2 r.cause ++ [r.ph, r.g]
    ++ bvBytes 4 r.records
def outcomeBytes (o : CommitOutcome) : List Byte :=
  bvBytes 4 o.ordinal ++ [BitVec.ofNat 8 ((if o.abort then 1 else 0) + (if o.save then 2 else 0)), 0]
    ++ bvBytes 2 o.chip ++ bvBytes 2 o.cause ++ zeros 6

/-- A bay of an unscheduled class freed: its credit goes back to the far end (09 Table 09.2, R381). `cls` is 2 for
class C control, 3 for D, 4 for M. -/
def State.returnUnsch (s : State) (l cls : Nat) : State :=
  s.updLink l (fun x =>
    let sd := x.side
    let v := ((if cls = 2 then sd.cFreed else if cls = 3 then sd.dFreed else sd.mFreed) + 1) % 32
    let sd1 := if cls = 2 then { sd with cFreed := v } else if cls = 3 then { sd with dFreed := v }
      else { sd with mFreed := v }
    { x with side := { sd1 with creds := sd1.creds ++ [{ cls, ctx := 0, value := v, left := 4 }] } })

/-- The bay of an arrived parcel freed as its receipt is acted on: the oldest that matches. Log 37 (DEDUCED). -/
def State.takeIn (s : State) (ok : InParcel → Bool) : State :=
  match s.inbox.find? ok with
  | none => s
  | some x =>
    let s1 := { s with inbox := s.inbox.erase x }
    let s2 := s1.updBay (x.bayP * 128 + x.bay) (fun _ => {})
    let c := hdrClass x.hdr
    s2.returnUnsch x.link (if c = 1 then 2 else if c = 2 then 3 else 4)

/-- The arrived control parcel of a slice with these bytes. -/
def isCtl (k kind : Nat) (bs : List Byte) (x : InParcel) : Bool :=
  hdrClass x.hdr = 1 && hdrKind x.hdr = kind && hdrSlice x.hdr = k && x.bytes = bs

/-! ### Hold marks (02 R67, R68; 09 R377 to R380) -/

/-- A hold mark recorded. -/
def noteMark (l : List Word) (o : Word) : List Word := if l.contains o then l else l ++ [o]

/-- A hold mark for the present landing of slice `k` put on its links, in four frames each. -/
def State.markLinks (s : State) (k : Nat) (ord : Word) (but : Option Nat) : State :=
  let ls := ((s.linksOf (s.sl k).id).map (fun l => 2 * l.1 + l.2)).filter (fun l => some l ≠ but)
  s.each ls (fun s l => s.updLink l (fun x => { x with side := { x.side with
    marks := x.side.marks ++ [(k, ord.toNat % 16, 4)] } }))

/-! ### Hold reports and releases (02 R70 to R73) -/

/-- The hold report of a part (08 Table 08.11). -/
def State.holdReport (s : State) (k : Nat) : HoldReport :=
  let l := (s.sl k).land
  { chip := s.cfg.chip, cause := BitVec.ofNat 8 l.cause, ordinal := l.holdOrd, e := l.a + BitVec.ofNat 64 l.w
    ready := BitVec.ofNat 64 l.readyAt }

/-- The hold length (02 R71): the least multiple of 256 at or above t_send − min E + reach + 256. -/
def holdLength (tSend : Int) (minE : Int) (reach : Nat) : Nat :=
  let n := (tSend - minE + reach + 256).toNat
  (n + 255) / 256 * 256

/-- The hold at the step's commit landing that an abort mark orders (02 R74), where the part holds for an earlier ordinal at that very
landing: it holds on and reports the landing's own ordinal. -/
def State.holdAgain (s : State) (k : Nat) : State :=
  s.updSl k (fun x => { x with
    phase := .landing, reports := []
    land := { x.land with holdOrd := x.land.ord, sent := false, released := false, cause := 0 }
    err := { x.err with holdCommit := false } })

/-- A release taken by a part (02 R72, R73): H is added to the offset; one that comes after its resume tread writes a
fault, and the part resumes at once with the lateness as lag. An abort mark holds the part at the step's commit landing
(02 R74). -/
def State.takeRelease (s : State) (k : Nat) (r : Release) : State :=
  let x := s.sl k
  if (x.phase = .held || x.phase = .landing || x.phase = .saved) && x.land.holdPend && !x.land.released
      && x.land.holdOrd = r.ordinal then
    let s1 := s.updSl k (fun x => { x with
      offset := x.offset + r.h.zeroExtend 64
      land := { x.land with holdLen := x.land.holdLen + r.h, released := true }
      err := { x.err with abortMark := x.err.abortMark || r.abort, holdCommit := x.err.holdCommit || r.abort } })
    let s2 := if x.phase = .saved || (s.flt.status = 3 && s.flt.slice.toNat = k) then { s1 with flt := { s1.flt with status := 0 } } else s1
    let e := s2.endAt k
    if r.abort && x.land.commit && x.land.holdOrd ≠ x.land.ord then s2.holdAgain k
    else if e < s2.now then
      let late := s2.now - e
      let s3 := s2.raise (FRec.schedule 0x010B none (some k) (BitVec.ofNat 64 (min late 0xFFFFFFFF)))
      (s3.updLand k (fun l => l.flag 12)).leaveLanding k late
    else s2.updSl k (fun x => { x with phase := .held })
  else s

/-- The master takes a hold report; holding one of every member it sends the release (02 R71). A release asked for a
late hold mark carries the abort mark (02 R74). -/
def State.collectHold (s : State) (k : Nat) (r : HoldReport) : State :=
  let x := s.sl k
  let rs := if x.reports.any (fun y => y.chip = r.chip) then x.reports else x.reports ++ [r]
  let s1 := s.updSl k (fun x => { x with reports := rs })
  if x.members ≤ rs.length && x.phase ≠ .saved then
    let minE := rs.foldl (fun a y => min a y.e.toInt) r.e.toInt
    let h := holdLength (s1.sliceTread k).toInt minE (Config.releaseReach k)
    let rel : Release := { ordinal := r.ordinal, h := BitVec.ofNat 32 h, abort := rs.any (fun y => y.cause = 4) }
    (s1.relay (.release k rel)).takeRelease k rel
  else s1

/-- The part holds at its landing from this tread on, or holds already. -/
def State.beginHold (s : State) (k : Nat) : State :=
  s.updSl k (fun x => { x with phase := .held, land := { x.land with since := if x.phase = .held then x.land.since else s.now } })

/-- A held part that is ready sends its hold report toward the master (02 R70). -/
def State.sendHold (s : State) (k : Nat) : State :=
  let x := s.sl k
  if x.land.holdPend && x.land.ready && !x.land.sent && (x.phase = .held || x.phase = .saved) then
    let r := s.holdReport k
    let s1 := s.updLand k (fun l => { l with sent := true })
    if s1.isMaster k then s1.collectHold k r else s1.relay (.hold k r)
  else s

/-! ### Commit regions (06 R270 to R273) -/

/-- The commit regions of slice `k` on the part: those enabled ones that the lists of its resident flights name, as
stack and region. -/
def State.regionsOf (s : State) (k : Nat) : List (Nat × Nat) :=
  ((s.flightsOf k).flatMap (fun f => f.2.cregs.filterMap (fun c =>
    (((List.range 8).find? (fun r =>
      let x := SMap.get {} (s.mc c.1).cregs r
      x.en && x.base.toNat = c.2.1)).map (fun r => (c.1, r)))))).eraseDups

/-- A commit region of a controller changed. -/
def State.updCreg (s : State) (c r : Nat) (f : Creg → Creg) : State :=
  s.updMc c (fun m => { m with cregs := SMap.upd {} m.cregs r f })

/-- Lines of a region's half: its length is in units of 2 MiB. -/
def Creg.lines (x : Creg) : Nat := x.len.toNat * 4096

/-- The coverage check at D of a commit landing (06 R272). -/
def State.checkCoverage (s : State) (k : Nat) : State :=
  s.each (s.regionsOf k) (fun s (c, r) =>
    let x := SMap.get {} (s.mc c).cregs r
    if x.wcnt.toNat = 0 || x.wcnt.toNat = x.lines then s
    else s.raise (FRec.schedule 0x0105 (srcMc c) (some k) (BitVec.ofNat 32 (c + 16 * r) ++ x.wcnt)))

/-- The outcome of a commit landing applied to the armed regions of the slice (06 R273): a commit inverts the selector;
an abort leaves the shadow undefined. -/
def State.applyRegions (s : State) (k : Nat) (abort : Bool) : State :=
  s.each (s.regionsOf k) (fun s (c, r) =>
    let x := SMap.get {} (s.mc c).cregs r
    if x.armed then
      let s1 := s.updCreg c r (fun y => { y with sel := if abort then y.sel else !y.sel, armed := false, wcnt := 0 })
      if abort then
        let lo := x.base.toNat * 2 ^ 21 + (if x.sel then 0 else x.len.toNat * 2 ^ 21)
        s1.undefine lo (lo + x.len.toNat * 2 ^ 21)
      else s1
    else s)

/-! ### Outcome (12 R490, R493, R494) -/

/-- A commit outcome taken by a part that is at its landing: regions, state epoch, counters; one that comes after E
writes a record, and the part leaves at once with the lateness as lag. -/
def State.takeOutcome (s : State) (k : Nat) (o : CommitOutcome) : State :=
  let x := s.sl k
  let l := x.land
  if (x.phase = .landing || x.phase = .held) && l.ord = o.ordinal && (l.commit || l.quiesce) && x.err.outcome.isNone then
    let s1 := if l.commit then s.applyRegions k o.abort else s
    let s2 := s1.updSl k (fun x => { x with
      err := { x.err with
        outcome := some o
        epoch := if l.commit && !o.abort then x.err.epoch + 1 else x.err.epoch
        abortMark := if l.commit then false else x.err.abortMark
        saveReq := if o.save then none else x.err.saveReq
        commits := if l.commit then x.err.commits ++ [(l.ord, o.abort)] else x.err.commits }
      tel := if l.commit then { x.tel with
          commits := if o.abort then x.tel.commits else x.tel.commits + 1
          aborts := if o.abort then x.tel.aborts + 1 else x.tel.aborts } else x.tel })
    let s3 := if l.commit then { s2 with flt := { s2.flt with
        commits := if o.abort then s2.flt.commits else satInc s2.flt.commits
        aborts := if o.abort then satInc s2.flt.aborts else s2.flt.aborts } } else s2
    let e := s3.endAt k
    if x.phase = .landing && e < s3.now && !l.holdPend && !o.save then
      let late := s3.now - e
      (s3.raise { cause := 0x0212, slice := some k, errs := [k], cls := 7
                  detail := BitVec.ofNat 64 (min late 0xFFFFFFFF) }).leaveLanding k late
    else s3
  else s

/-- A save request that applies at a quiesce landing (12 R501). -/
def SliceErr.saveApplies (e : SliceErr) (ord : Word) : Bool :=
  match e.saveReq with
  | none => false
  | some o => !ordBefore ord o

/-- The master takes a commit report; holding one of every member it decides and sends the outcome (12 R490, R492). -/
def State.collectCommit (s : State) (k : Nat) (r : CommitReport) : State :=
  let x := s.sl k
  let rs := if x.err.reports.any (fun y => y.chip = r.chip && y.ordinal = r.ordinal) then x.err.reports
    else x.err.reports ++ [r]
  let s1 := s.updSl k (fun x => { x with err := { x.err with reports := rs } })
  let mine := rs.filter (fun y => y.ordinal = x.land.ord)
  if x.members ≤ mine.length && (x.phase = .landing || x.phase = .held) && x.err.outcome.isNone then
    let bad := mine.filter (fun y => y.status ≠ 0)
    let low := bad.foldl (fun (a : Option CommitReport) y => match a with
      | none => some y
      | some z => if y.chip.toNat < z.chip.toNat then some y else some z) none
    let o : CommitOutcome :=
      { ordinal := x.land.ord
        abort := x.land.commit && (!bad.isEmpty || x.err.abortMark)
        save := x.land.quiesce && x.err.saveApplies x.land.ord && bad.isEmpty
        chip := match low with | some y => y.chip | none => 0xFFFF
        cause := match low with | some y => y.cause | none => 0 }
    let s2 := s1.updSl k (fun x => { x with err := { x.err with reports := [] } })
    (s2.relay (.outcome k o)).takeOutcome k o
  else s1

/-- The snapshot and the commit report of D (12 R489 to R491). At a commit landing the snapshot clears the error state;
at a landing that is only a quiesce landing it is read and kept. The first record that made the report unclean is kept
for the notice of 12 R498. -/
def State.sendCommit (s : State) (k : Nat) : State :=
  let x := s.sl k
  let e := x.err
  let unclean := e.cls ≠ 0 || e.wdog
  let f := e.first.getD (0, 0xFF, 0xFF)
  let r : CommitReport :=
    { chip := s.cfg.chip, status := if unclean then 1 else 0, snapshot := e.cls, ordinal := x.land.ord, cause := f.1
      ph := if e.first.isSome then f.2.1 else 0, g := if e.first.isSome then f.2.2 else 0, records := e.records }
  let s1 := if x.land.commit then s.updSl k (fun x => { x with err := { x.err with
      cls := 0, count := 0, snapshot := e.cls, first := none, records := 0, firstRec := none, wdog := false
      notice := if unclean then e.firstRec else none } })
    else s.updSl k (fun x => { x with err := { x.err with snapshot := e.cls } })
  if s1.isMaster k then s1.collectCommit k r else s1.relay (.report k r)

/-! ### Receipts -/

/-- HOLD_REPORT_RECEIPT (R71): the master collects it; another member passes it on (08 R358). -/
def execHoldReportReceipt (slice : BitVec 8) (r : HoldReport) (s : State) : Out :=
  let k := slice.toNat
  let s1 := s.takeIn (isCtl k 2 (holdBytes r))
  .next (if !(s1.sl k).admitted then s1
    else if s1.isMaster k then s1.collectHold k r else s1.relay (.hold k r))

/-- RELEASE_RECEIPT (R72). -/
def execReleaseReceipt (slice : BitVec 8) (r : Release) (s : State) : Out :=
  let k := slice.toNat
  let s1 := s.takeIn (isCtl k 3 (releaseBytes r))
  .next (if (s1.sl k).admitted then (s1.relay (.release k r)).takeRelease k r else s1)

/-- COMMIT_REPORT_RECEIPT (R492). -/
def execCommitReportReceipt (slice : BitVec 8) (r : CommitReport) (s : State) : Out :=
  let k := slice.toNat
  let s1 := s.takeIn (isCtl k 4 (reportBytes r))
  .next (if !(s1.sl k).admitted then s1
    else if s1.isMaster k then s1.collectCommit k r else s1.relay (.report k r))

/-- COMMIT_OUTCOME_RECEIPT (R490). -/
def execCommitOutcomeReceipt (slice : BitVec 8) (o : CommitOutcome) (s : State) : Out :=
  let k := slice.toNat
  let s1 := s.takeIn (isCtl k 5 (outcomeBytes o))
  .next (if (s1.sl k).admitted then (s1.relay (.outcome k o)).takeOutcome k o else s1)

/-- The part gives the slice up: a hold-timeout record, the notice of a failed slice, and the part stays stopped
(02 R75). -/
def State.failSlice (s : State) (k : Nat) : State :=
  let s1 := s.updSl k (fun x => { x with phase := .failed })
  s1.raiseNotice (FRec.schedule 0x010D none (some k) (BitVec.ofNat 64 k)) 0x04 (BitVec.ofNat 64 k) [k]

/-- Treads that a part waits for a release or an outcome (02 R75, 12 R490). -/
def holdLimit : Nat := 16777216

/-- HOLD_TIMEOUT (R75): the wait counts from the tread at which the part began to hold; a saved slice waits without limit (12 R502). -/
def execHoldTimeout (slice : BitVec 8) (s : State) : Out :=
  let k := slice.toNat
  let x := s.sl k
  if x.phase = .held && !x.land.released then
    let t := x.land.since + holdLimit
    let s1 := s.waitUntil t
    .next (if t ≤ s1.now then s1.failSlice k else s1)
  else .next s

/-- COMMIT_OUTCOME_TIMEOUT (R490). -/
def execCommitOutcomeTimeout (slice : BitVec 8) (s : State) : Out :=
  let k := slice.toNat
  let x := s.sl k
  if (x.phase = .landing || x.phase = .held) && x.land.reported && (x.land.commit || x.land.quiesce) && x.err.outcome.isNone then
    let t := s.endAt k + holdLimit
    let s1 := s.waitUntil t
    .next (if t ≤ s1.now then s1.failSlice k else s1)
  else .next s

end Sys2Proof.Machine
end

