-- ==== Sys2Proof/Machine/Save.lean ====
section
/-! DEFINITION. Saving, resuming and restoring a slice (12 R501 to R506, Table 12.4).
-/
namespace Sys2Proof.Machine

/-! ### The gallery block (12 Table 12.4) -/

/-- The bytes of a tile's elements, 8 KiB (04 R137). -/
def Tile.bytes (t : Tile) : List Byte :=
  match Fmt.ofCode t.fmt with
  | none => zeros 8192
  | some m => leBytes 8192 (t.elems.foldl (fun a e => a + e.2.toNat * 2 ^ (e.1 * m.width)) 0)

/-- The scale bytes of a tile, 512 bytes; unscaled ones are 0. -/
def Tile.scaleBytes (t : Tile) : List Byte :=
  if t.scaled then
    match Fmt.ofCode t.fmt with
    | none => zeros 512
    | some m => (List.range 512).map (fun i => if i < 64 * blocks m then SMap.get 0 t.scales i + 127 else 0)
  else zeros 512

/-- Format code, loaded and scaled of a tile. -/
def Tile.head (t : Tile) : List Byte :=
  leBytes 8 (t.fmt.toNat + (if t.loaded then 16 else 0) + (if t.scaled then 32 else 0))

/-- The code of a bank mode. -/
def BankMode.code : BankMode → Nat
  | .exact => 0
  | .xf => 1
  | .ffloat => 2
  | .fint => 3

/-- A bank mode from its code. -/
def BankMode.ofCode (n : Nat) : BankMode :=
  match n % 4 with
  | 0 => .exact
  | 1 => .xf
  | 2 => .ffloat
  | _ => .fint

/-- One bit per register of a file of `n`. -/
def regBits (n : Nat) (f : Nat → Bool) : Nat := (List.range n).foldl (fun a i => a + if f i then 2 ^ i else 0) 0

/-- The block of a gallery: 64 KiB. -/
def Gallery.block (g : Gallery) : List Byte :=
  let lv := fun (i : Nat) => g.loops.getD i {}
  (List.range 64).flatMap (fun r => bvBytes 256 (g.vr r).bits)
    ++ (List.range 64).flatMap (fun r => bvBytes 8 (g.vr r).poison)
    ++ (List.range 16).flatMap (fun r => bvBytes 8 (g.xr r).bits)
    ++ (List.range 8).flatMap (fun r => bvBytes 8 (g.pr r).bits)
    ++ (List.range 4).flatMap (fun r => bvBytes 8 (g.fr r).crc)
    ++ (List.range 4).flatMap (fun r => bvBytes 4 (g.fr r).lines)
    ++ leBytes 4 (regBits 16 (fun r => (g.xr r).poison) + 65536 * regBits 8 (fun r => (g.pr r).poison)
        + 2 ^ 24 * regBits 4 (fun r => (g.fr r).poison) + 2 ^ 28 * regBits 4 (fun r => (g.fr r).init))
    ++ bvBytes 4 g.arith ++ zeros 8
    ++ (List.range 4).flatMap (fun i => leBytes 4 (lv i).trip ++ leBytes 4 (lv i).iter ++ leBytes 4 (lv i).start
        ++ leBytes 4 (if i < g.loops.length then 1 else 0))
    ++ (List.range 4).flatMap (fun b => leBytes 4 ((g.bank b).ea.toNat + 65536 * (g.bank b).mode.code))
    ++ g.active.head ++ g.shadow.head ++ zeros 160
    ++ (List.range 4).flatMap (fun b => (g.bank b).image) ++ zeros 1024
    ++ g.active.bytes ++ g.shadow.bytes ++ g.active.scaleBytes ++ g.shadow.scaleBytes ++ zeros 23552

/-- A number in a block. -/
def blockNat (bs : List Byte) (o n : Nat) : Nat := leNat ((bs.drop o).take n)

/-- A tile read back from a block. -/
def Tile.ofBlock (bs : List Byte) (head elems scales : Nat) : Tile :=
  let h := blockNat bs head 8
  let code : BitVec 4 := BitVec.ofNat 4 h
  if h / 16 % 2 = 1 then
    match Fmt.ofCode code with
    | none => {}
    | some m => tileOf m code false (h / 32 % 2 = 1) (blockNat bs elems 8192) ((bs.drop scales).take 512) false
  else {}

/-- A gallery with the registers, banks and tiles of a block. -/
def Gallery.ofBlock (g : Gallery) (bs : List Byte) : Gallery :=
  let n := blockNat bs
  let pb := n 0x42F0 4
  let bit := fun (i : Nat) => decide (pb / 2 ^ i % 2 = 1)
  let g1 := { g.launched with arith := BitVec.ofNat 8 (n 0x42F4 4) }
  let g2 := (List.range 64).foldl (fun g r => g.setV r
    { bits := BitVec.ofNat 2048 (n (256 * r) 256), poison := BitVec.ofNat 64 (n (0x4000 + 8 * r) 8) }) g1
  let g3 := (List.range 16).foldl (fun g r => g.setX r
    { bits := BitVec.ofNat 64 (n (0x4200 + 8 * r) 8), poison := bit r }) g2
  let g4 := (List.range 8).foldl (fun g r => g.setP r
    { bits := BitVec.ofNat 64 (n (0x4280 + 8 * r) 8), poison := bit (16 + r) }) g3
  let g5 := (List.range 4).foldl (fun g r => g.setF r
    { crc := BitVec.ofNat 64 (n (0x42C0 + 8 * r) 8), init := bit (28 + r), poison := bit (24 + r)
      lines := BitVec.ofNat 32 (n (0x42E0 + 4 * r) 4) }) g4
  let g6 := (List.range 4).foldl (fun g b =>
    let x := n (0x4400 + 1536 * b) 1536
    g.setBank b { mode := BankMode.ofCode (n (0x4340 + 4 * b) 4 / 65536), ea := BitVec.ofNat 16 (n (0x4340 + 4 * b) 4)
                  words := bankWords ((List.range 64).map (fun j => BitVec.ofNat 192 (x / 2 ^ (192 * j)))) }) g5
  { g6 with
    loops := (List.range 4).filterMap (fun i =>
      let o := 0x4300 + 16 * i
      if n (o + 12) 4 % 2 = 1 then some { trip := n o 4, iter := n (o + 4) 4, start := n (o + 8) 4 } else none)
    active := Tile.ofBlock bs 0x4350 0x6000 0xA000
    shadow := Tile.ofBlock bs 0x4358 0x8000 0xA200 }

/-! ### Part state -/

/-- The bytes in which the steward holds the part state: the spec lists what they hold and gives no layout (12 Table
12.4). Log 32 (DESIGN CHOICE). -/
opaque Config.partBytes : SavedPart → List Byte

/-- What the steward reads from bytes that no save of this part has written, none where they hold no part state. -/
opaque Config.partRead : List Byte → Option SavedPart

/-- Bytes of the part-state area. -/
def partArea : Nat := 0x100000

/-- The part state of slice `k` as a save records it. Log 99 (DEDUCED). -/
def State.partState (s : State) (k : Nat) : SavedPart :=
  let x := s.sl k
  { chip := s.cfg.chip, slice := k, k := x.id.k, pos := x.id.pos, land := x.land, offset := x.offset, epoch := x.err.epoch
    cls := x.err.cls, count := x.err.count
    regions := (List.range (stacksOf s.cfg.grade)).flatMap (fun c => (List.range 8).map (fun r =>
      let y := SMap.get {} (s.mc c).cregs r
      (c, r, y.sel, y.armed)))
    received := (s.flightsOf k).map (fun f => (f.1, f.2.received))
    tokens := s.stair.queue.filter (fun t => s.tokSlice t = k)
    runs := (s.flightsOf k).filterMap (fun f => f.2.run.map (fun r => (f.1, r)))
    streams := (s.ctxAgents k).map (fun c => (c, (s.ctx c).streams))
    slots := (List.range (stacksOf s.cfg.grade)).map (fun c => (c, (s.mc c).flights.filter (fun f => f.slice = k)))
    halls := (s.hallsOf k).map (fun ph => ((s.hall ph).vh, (s.hall ph).reg, (s.hall ph).iss))
    fetched := (s.hallsOf k).map (fun ph => ((s.hall ph).vh, (List.range 16).map (fun g => (s.gal (galIdx ph g)).fetched))) }

/-- The base of the save area. -/
def State.saveBase (s : State) : Nat := s.flt.saveBase.toNat * 2 ^ 21

/-- The block of gallery `gi` in the save area. -/
def State.blockAddr (s : State) (gi : Nat) : Nat := s.saveBase + partArea + 0x10000 * gi

/-- The bytes of the part-state area for a part state. -/
def partImage (p : SavedPart) : List Byte := (Config.partBytes p).take partArea

/-- The part state that the save area holds: the last one saved whose bytes stand there (12 R505, 06 R276). -/
def State.readPart (s : State) : Option SavedPart :=
  let bs := s.readBytes s.saveBase partArea
  match s.flt.saves.find? (fun p => bs.take (partImage p).length = partImage p) with
  | some p => some p
  | none => Config.partRead bs

/-- The save area written by the steward (12 R502). -/
def State.writeSave (s : State) (k : Nat) : State :=
  let p := s.partState k
  let s0 := s.writeBytes s.saveBase (partImage p)
  let s1 := { s0 with flt := { s0.flt with saves := p :: s0.flt.saves } }
  s1.each ((s1.hallsOf k).flatMap (fun ph => (List.range 16).map (galIdx ph))) (fun s gi =>
    s.writeBytes (s.blockAddr gi) (s.gal gi).block)

/-- A slice stands saved at its quiesce landing (12 R502). -/
def State.standSaved (s : State) (k : Nat) : State :=
  let s1 := (s.updSl k (fun x => { x with
    phase := .saved, land := { x.land with holdPend := true, cause := 0, released := false } })).writeSave k
  ({ s1 with flt := { s1.flt with status := 3, slice := BitVec.ofNat 8 k } }).sendHold k

/-! ### Commands (12 R501, R504, R505) -/

/-- FLT_SAVE_CTL takes a write except while its status is saving or restoring (12 R507). -/
def State.saveCtlOpen (s : State) : Bool := s.flt.status ≠ 2 && s.flt.status ≠ 4

/-- Its offset in the set-up space. -/
def saveCtlOff : Word := 0x0006000C

/-- SAVE (R501): a save is requested on the master, for the first quiesce landing at or after FLT_SAVE_ORD. On another
member, or for a slice that is not admitted, no save can follow, and only the register takes the write. -/
def State.askSave (s : State) (slice : BitVec 8) : State :=
  let k := slice.toNat
  let s1 := { s with flt := { s.flt with op := 1, slice } }
  if (s.sl k).admitted && s.isMaster k then
    ({ s1 with flt := { s1.flt with status := 1 } }).updSl k (fun x => { x with err := { x.err with saveReq := some s.flt.saveOrd } })
  else s1

/-- RESUME (R504): the master of a saved slice sends the release once it holds every report. -/
def State.askResume (s : State) (slice : BitVec 8) : State :=
  let k := slice.toNat
  let s1 := { s with flt := { s.flt with op := 2, slice } }
  let x := s1.sl k
  if x.phase = .saved && s1.isMaster k then
    let s2 := s1.beginHold k
    match x.reports with
    | [] => s2
    | r :: _ => s2.collectHold k r
  else s1

/-- The bundles that the running area of a gallery held, `n` of its stream fetched, read again from the flight's code at `code`: the save
area holds no instruction store. Log 32 (DESIGN CHOICE). -/
def State.loadCode (s : State) (gi n code : Nat) : State :=
  s.updGal gi (fun x => { x with
    fetched := n
    istore := (List.range (min 1024 (n - 256))).foldl (fun m i =>
      let b := n - 1 - i
      SMap.set {} m (istorePos 0 b)
        { index := b, bits := BitVec.ofNat 256 (leNat (s.readBytes (code + 32 * b) 32)), held := true }) x.istore })

/-- A hall takes up its flight again as the save left it, its galleries from their blocks. What TREADs the save holds are of another run
(02 R79). A hall that is neither idle nor running takes up nothing: it counts as not running (03 R86, R126; 08 R364). -/
def State.loadHall (s : State) (k ph : Nat) (reg : HallReg) (iss : HallIss) (fetched : List Nat) : State :=
  if (s.hall ph).st = .idle || (s.hall ph).st = .running then
    let s1 := s.updHall ph (fun h => { h with
      st := .running
      iss := { iss with slot := (h.slotOf iss.flight).getD iss.slot, stopped := true, noCopy := false, last := 0, limited := none
                        scrubNext := h.iss.scrubNext, scrubPtr := h.iss.scrubPtr }
      reg := { h.reg with pid := reg.pid, pace := reg.pace } })
    let sh := (s1.flight iss.flight).bind (s1.shareOn ph)
    s1.each (List.range 16) (fun s g =>
      let gi := galIdx ph g
      let bs := s.readBytes (s.blockAddr gi) 0x10000
      let s2 := s.updGal gi (fun x => x.ofBlock bs)
      match sh with
      | none => s2
      | some sh => s2.loadCode gi (fetched.getD g 256) (sh.code.getD g 0))
  else
    let vh := (s.hall ph).vh
    (s.updFlight iss.flight (fun f => { f with offHalls := if f.offHalls.contains vh then f.offHalls else f.offHalls ++ [vh] })).notRunning k

/-- The part state and the gallery state of a save area loaded into the slice (12 R505 step 5). -/
def State.loadSave (s : State) (k : Nat) (p : SavedPart) : State :=
  let s1 := s.updSl k (fun x => { x with
    offset := s.flt.resumeOfs, started := true
    land := { p.land with holdPend := true, reported := true, ready := true, final := true, released := false, sent := false
                          cause := 0, holdLen := 0, readyAt := s.now, since := s.now, err := 0, mcAt := [] }
    err := { x.err with epoch := p.epoch + 1, cls := p.cls, count := p.count } })
  let s2 := s1.each p.regions (fun s (c, r, sel, armed) => s.updCreg c r (fun y => { y with sel, armed }))
  let s3 := s2.each p.received (fun s (f, n) => s.updFlight f (fun x => { x with received := n }))
  let s4 := s3.each p.runs (fun s (f, r) => s.updFlight f (fun x => { x with run := some r }))
  let s5 := { s4 with stair := { s4.stair with queue := s4.stair.queue ++ p.tokens } }
  let s6 := s5.each p.streams (fun s (c, l) => s.updCtx c (fun x => { x with streams := l }))
  let s7 := s6.each p.slots (fun s (c, l) => s.updMc c (fun m =>
    { m with flights := m.flights.filter (fun f => f.slice ≠ k) ++ l }))
  s7.each (s7.hallsOf k) (fun s ph =>
    match p.halls.find? (fun h => h.1 = (s.hall ph).vh) with
    | none => s
    | some (vh, reg, iss) =>
      let runs := p.runs.any (fun r => r.1 = iss.flight && !r.2.woHalls)
        && ((s.flight iss.flight).any (fun f => f.shares.any (fun x => x.vh.toNat = vh)))
      let n := match p.fetched.find? (fun e => e.1 = vh) with | some e => e.2 | none => []
      if runs then s.loadHall k ph reg iss n else s)

/-- RESTORE (R505): the state is loaded and the part stands held at the saved landing, or the restore is refused when
its slice tread is before the saved E. FLT_SAVE_CTL.status is idle once the part stands held. Log 117 (DEDUCED). -/
def State.askRestore (s : State) (slice : BitVec 8) : State :=
  let k := slice.toNat
  let s1 := { s with flt := { s.flt with op := 3, slice, status := 0 } }
  let refused := { s1 with flt := { s1.flt with status := 5 } }
  match if (s1.sl k).admitted then s1.readPart else none with
  | none => refused
  | some p =>
    let s2 := s1.loadSave k p
    let e := (s2.sl k).land.a + BitVec.ofNat 64 (s2.sl k).land.w
    if (s2.sliceTread k - e).toInt < 0 then
      ({ s2 with flt := { s2.flt with status := 5 } }).updSl k (fun x => { x with phase := .failed })
    else (s2.beginHold k).sendHold k

/-- A write of FLT_SAVE_CTL with an op. -/
def State.saveCtl (s : State) (op : Nat) (slice : BitVec 8) (f : State → State) : State :=
  if s.saveCtlOpen then f s else s.refuseWrite saveCtlOff (BitVec.ofNat 32 (op * 2 ^ 30 + slice.toNat))

/-- SAVE (R501). -/
def execSave (slice : BitVec 8) (s : State) : Out := .next (s.saveCtl 1 slice (fun s => s.askSave slice))

/-- RESUME (R504). -/
def execResume (slice : BitVec 8) (s : State) : Out := .next (s.saveCtl 2 slice (fun s => s.askResume slice))

/-- RESTORE (R505). -/
def execRestore (slice : BitVec 8) (s : State) : Out := .next (s.saveCtl 3 slice (fun s => s.askRestore slice))

end Sys2Proof.Machine
end

