-- ==== Sys2Proof/Machine/Report.lean ====
section
/-! DEFINITION. The report tread D of a landing: readiness, the launch set, the checks of D, hold marks (02 R61 to R70;
03 R109 to R118; 06 R244, R259, R272; 09 R385; 12 R489, R490, R503), and the commands that start and end landings.
-/
namespace Sys2Proof.Machine

/-! ### Alignment (02 R35, 09 R385) -/

/-- A number modulo 4,096 taken into −2,048 to 2,047. -/
def wrap12 (x : Int) : Int := (x + 2048) % 4096 - 2048

/-- The alignment error e of slice `k` at this tread: 0 at the master, and 0 without a mark from the parent in the last
8,192 treads. Log 19 (DEDUCED). -/
def State.alignErr (s : State) (k : Nat) : Int :=
  let x := s.sl k
  match s.parentLink x.id with
  | none => 0
  | some (p, h) =>
    let sd := (s.link (2 * p + h)).side
    match sd.parentMark, sd.delayL with
    | some (m, tc), some l =>
      if s.now ≤ tc + 8192 then wrap12 ((tc : Int) - m - l - x.epochDiff.toInt) else 0
    | _, _ => 0

/-! ### Tokens (02 R63; 03 R109, R112, R113) -/

/-- Every job of a channel. -/
def Chan.jobs (c : Chan) : List DmaJob := c.act.toList ++ c.shd.toList ++ c.wait

/-- A transfer that will raise a token for ordinal `o` of slice `k`; `k0` is the slice that its flight had (03 R111). -/
def State.raises (s : State) (k : Nat) (o : Word) (k0 : Byte) (d : DmaDesc) : Bool :=
  d.tokEn && d.tokOrd = o && (match s.flight d.tokFlight.toNat with | some f => f.slice.toNat = k | none => k0.toNat = k)

/-- A token named for the present landing is not there yet: on its way, or to be raised by a transfer not finished. -/
def State.tokensLate (s : State) (k : Nat) : Bool :=
  let o := (s.sl k).land.ord
  s.stair.transit.any (fun t => !t.branch && t.ord = o && s.tokSlice t = k)
    || s.chans.any (fun c => c.2.jobs.any (fun j => s.raises k o j.tokSlice j.d))
    || s.foyer.stor.any (fun j => s.raises k o j.tokSlice j.d)

/-- One token counted (03 R109, R112, R113). -/
def State.countOne (s : State) (k : Nat) (t : Token) : State :=
  match s.flight t.flight with
  | none => s.tokFault 0x011A t.flight t.ord 0 k
  | some f =>
    if f.received = 0xFFFF then s.tokFault 0x0109 t.flight t.ord 1 k
    else s.setFlight t.flight (some { f with received := f.received + 1 })

/-- The tokens named for the present landing of slice `k` leave the queue and are counted; scheduled work sees what their transfers
have written (11 R477). -/
def State.countTokens (s : State) (k : Nat) : State :=
  let o := (s.sl k).land.ord
  let mine := fun (t : Token) => t.ord = o && decide (s.tokSlice t = k)
  let q := s.stair.queue
  ({ s with stair := { s.stair with queue := q.filter (fun t => !mine t) }
            unseen := s.unseen.filter (fun u => u.tok ≠ some (k, o)) }).each (q.filter mine)
    (fun s t => s.countOne k t)

/-! ### The launch set (03 R114, 02 R65, 11 R463) -/

/-- The branch value for the present landing. Log 92 (DEDUCED). -/
def State.branchVal (s : State) (k : Nat) : Option Nat :=
  ((s.sl k).bvals.find? (fun b => b.1 = (s.sl k).land.ord)).map (fun b => b.2.toNat)

/-- A branch landing whose value has not come. -/
def State.branchLate (s : State) (k : Nat) : Bool := (s.sl k).land.branch && (s.branchVal k).isNone

/-- The successors that a branch value selects, of the flights that end here. -/
def State.selected (s : State) (k v : Nat) : List Nat :=
  ((s.flightsRunning k).filter (fun f => f.2.endsHere)).filterMap (fun f => f.2.succs[v]?)

/-- candidate(f, k) of 03 R114. -/
def State.candidate (s : State) (k f : Nat) (fl : Flight) : Bool :=
  fl.cand && (fl.run.isNone || fl.endsHere)
    && (!(s.sl k).land.branch || (match s.branchVal k with | some v => (s.selected k v).contains f | none => false))

/-- Halls that may take a launch: idle, or running a flight that ends here. -/
def State.freeHalls (s : State) (k : Nat) : List Nat :=
  (s.hallsOf k).filter (fun ph =>
    let h := s.hall ph
    h.st = .idle || (h.st = .running && (match s.flight h.iss.flight with | some f => f.endsHere | none => false)))

/-- The launch set of slice `k`, in ascending flight index. -/
def State.launchSet (s : State) (k : Nat) : List Nat :=
  ((s.flightsOf k).foldl (fun (acc : List Nat × List Nat) e =>
    let phs := s.shareHalls e.2
    if e.2.need.toNat ≤ e.2.received.toNat && s.candidate k e.1 e.2 && phs.all (fun ph => acc.2.contains ph) then
      (acc.1 ++ [e.1], acc.2.filter (fun ph => !phs.contains ph))
    else acc) ([], s.freeHalls k)).1

/-- The flights of a list with their data. -/
def State.flightsAt (s : State) (l : List Nat) : List (Nat × Flight) :=
  l.filterMap (fun f => (s.flight f).map (fun x => (f, x)))

/-- Halls whose head for a launch is not present (03 R115). -/
def State.headsLate (s : State) (l : List Nat) : List Nat :=
  (s.flightsAt l).flatMap (fun e => (s.shareHalls e.2).filter (fun ph => !(s.hall ph).hasHead e.1))

/-- A first segment is not present, or a stack of a launch is in self-refresh (06 R254, R259; 08 R334). -/
def State.segsLate (s : State) (l : List Nat) : Bool :=
  (s.flightsAt l).any (fun e =>
    e.2.slotTabs.any (fun t => !e.2.segsIn.contains t.1 || (s.mc t.1).selfref)
      || e.2.tts.any (fun t => !e.2.ttsIn.contains t.1))

/-- Halls that step to another pace point for a launch (02 Table 02.5, 10 R413). -/
def State.paceHalls (s : State) (l : List Nat) : List Nat :=
  (s.flightsAt l).flatMap (fun e => (s.shareHalls e.2).filter (fun ph => (s.hall ph).reg.pace ≠ pidPace e.2.pid))

/-- Controllers that become agents by a launch: their slot tables hold entries of a flight that launches (02 R60). -/
def State.newMcs (s : State) (k : Nat) (l : List Nat) : List Nat :=
  (((s.flightsAt l).flatMap (fun e => (e.2.slotTabs.filter (fun t => !t.2.isEmpty)).map (fun t => t.1))).eraseDups).filter
    (fun c => !s.mcAgent k c)

/-- What such a controller brought to A: its lag and its refresh debts. -/
def Landing.atA (l : Landing) (c : Nat) : Nat × SMap Int :=
  match l.mcAt.find? (fun e => e.1 = c) with
  | some e => e.2
  | none => (0, [])

/-! ### Readiness (02 R61, R63) -/

/-- A hall has reached its LAND. -/
def Hall.arrived (h : Hall) : Bool := h.st != .running || (h.iss.stopped && !h.iss.noCopy)

/-- The largest sum of treads that an agent spends from A, alignment apart; `pace` lists halls with a pace-point step,
`news` the controllers that a launch makes agents. -/
def State.agentNeed (s : State) (k : Nat) (pace news : List Nat) : Nat :=
  let l := (s.sl k).land
  let it := fun (a : Nat) => SMap.get 0 l.items a
  let hs := (s.hallAgents k).foldl (fun a ph =>
    max a ((s.hall ph).iss.arrLag + it ph + (if pace.contains ph then 2048 else 0))) 0
  let ms := (s.mcAgents k).foldl (fun a c => max a ((s.mc c).arrLag + it (mcItem c))) 0
  let ns := news.foldl (fun a c => max a ((l.atA c).1 + refreshCost (l.atA c).2)) 0
  (s.ctxAgents k).foldl (fun a c => max a (s.ctx c).arrLag) (max hs (max ms ns))

/-- What a look at the landing gives: the launch set, the treads needed from A with the alignment item, and why the
part is not ready (08 R359), none when nothing but time is missing. `align`: the alignment item alone passes `limit`. `tight`: a
pace-point step falls on a landing whose spendable width is below 2,112 treads (10 R414). -/
structure Judged where
  launch : List Nat
  need : Nat
  align : Bool
  tight : Bool
  block : Option Nat

/-- The look (02 R63): `limit` is the number of treads from A that agents may take. -/
def State.judge (s : State) (k limit : Nat) : Judged :=
  let l := (s.sl k).land
  let launch := if s.branchLate k then [] else s.launchSet k
  let pace := s.paceHalls launch
  let n := s.agentNeed k pace (s.newMcs k launch)
  let behind := if l.err < 0 then l.err.natAbs else 0
  let stuck := !(s.hallAgents k).all (fun ph => (s.hall ph).arrived) || !(s.headsLate launch).isEmpty || s.segsLate launch
  { launch, need := n + behind, align := decide (n ≤ limit), tight := !pace.isEmpty && decide (l.d < 2112)
    block := if stuck then some 0 else if s.tokensLate k then some 2 else if s.branchLate k then some 3 else none }

/-- The part is ready at TREAD `at_`: its launch set is final; the pace-point steps of the launch, and what the controllers that it makes
agents brought to A, are spent (02 R60, Table 02.5). Log 24 (DEDUCED). -/
def State.setReady (s : State) (k : Nat) (j : Judged) (at_ : Nat) : State :=
  let pace := s.paceHalls j.launch
  let l0 := (s.sl k).land
  let news := s.newMcs k j.launch
  let s1 := s.each news (fun s c => s.forcedRefresh k c (l0.atA c).2)
  s1.updLand k (fun l =>
    let l1 := pace.foldl (fun l ph => l.spend ph 2048) l
    let l2 := if pace.isEmpty then l1 else l1.flag 7
    { l2 with launch := j.launch, ready := true, final := true, readyAt := at_
              mcLag := news.foldl (fun a c => max a (l0.atA c).1) l2.mcLag })

/-! ### The checks of D -/

/-- Entries of one buffer left at D (06 R244). -/
def State.residue (s : State) (k ph kind side n : Nat) : State :=
  let f := (s.hall ph).iss.flight
  let d : Word64 := BitVec.ofNat 64 (kind + 256 * side + 65536 * ph + 16777216 * n)
  s.raise { FRec.schedule 0x0107 (srcHall ph) (some k) d with ph := BitVec.ofNat 8 ph, flight := BitVec.ofNat 16 f }

/-- The alcove and stairwell buffers that hall `ph` reads are checked; at its flight's end landing they are emptied. -/
def State.checkBuffers (s : State) (k ph : Nat) : State :=
  let last := match s.flight (s.hall ph).iss.flight with | some f => f.endsHere | none => false
  let s1 := s.each (List.range 4) (fun s side =>
    match alcoveNbr ph side with
    | none => s
    | some n =>
      let key := alcoveKey n (oppSide side)
      let c := (s.xport.alc key).length
      if c = 0 then s
      else
        let t := s.residue k ph 0 side c
        if last then { t with xport := { t.xport with alcove := SMap.set [] t.xport.alcove key [] } } else t)
  s1.each ((List.range 4).filter (fun d => d ≠ dieOfHall ph)) (fun s d =>
    let key := stairKey ph d
    let c := (s.xport.stw key).length
    if c = 0 then s
    else
      let t := s.residue k ph 1 d c
      if last then { t with xport := { t.xport with stair := SMap.set [] t.xport.stair key [] } } else t)

/-- Bays of the share of context `c` that hold something, on the pool of its port and of a bonded partner. -/
def State.busyBays (s : State) (c : Nat) : List (Nat × Nat) :=
  let p := c / 64
  let pools := if s.form p = .bond then [p, p + 1] else [p]
  pools.flatMap (fun q => ((List.range 104).filter (fun b =>
    (s.ctx c).ownsBay b && decide (s.bay (q * 128 + b) ≠ {}))).map (fun b => (q, b)))

/-- Whether an outbox record is of slice `k`: its flight's slice, or a branch value. -/
def State.outboxOf (s : State) (k : Nat) (r : BitVec 64) : Bool :=
  if r.extractLsb' 18 2 = 1 then true
  else match s.flight (r.extractLsb' 20 12).toNat with | some f => f.slice.toNat = k | none => false

/-- The residue check of a quiesce landing (12 R503): one record; which bay or outbox record it names when several are found is free. Log 26 (DESIGN CHOICE). -/
def State.checkQuiesce (s : State) (k : Nat) : State :=
  let found := (s.ctxAgents k).flatMap (fun c => (s.busyBays c).map (fun x => (x.1, c, x.2))
    ++ (if (s.port (c / 64)).outbox.any (fun r => s.outboxOf k r) then [(c / 64, c, 0x7F)] else []))
  match oneOf [26, s.now, k] found with
  | none => s
  | some (p, c, b) =>
    let d : Word64 := (s.sl k).land.ord
      ++ BitVec.ofNat 32 (p + (if (s.ctx c).half then 32 else 0) + 64 * (c % 64) + 4096 * b)
    s.raise (FRec.schedule 0x011B (srcArc (p / 6)) (some k) d)

/-- Books whose start ordinal this is: their flights become candidates with received counts of 0 (11 R461). -/
def State.startBooks (s : State) (k : Nat) : State :=
  s.each ((s.flightsOf k).filter (fun f => !f.2.cand && f.2.start = (s.sl k).land.ord)) (fun s f =>
    s.updFlight f.1 (fun x => { x with cand := true }))

/-- Heads that were late at D (03 Table 03.7). -/
def State.countHeads (s : State) (l : List Nat) : State :=
  s.each (s.headsLate l).eraseDups (fun s ph =>
    s.updHall ph (fun h => { h with cnt := { h.cnt with headLate := satInc h.cnt.headLate } }))

/-- What the part does at D of the present landing of slice `k`. -/
def State.reportNow (s : State) (k : Nat) : State :=
  let s1 := ((s.updLand k (fun l => { l with reported := true, err := s.alignErr k })).startBooks k).countTokens k
  let d := (s1.sl k).land.d
  let j := s1.judge k d
  let s2 := s1.countHeads j.launch
  let ok := j.block.isNone && j.need ≤ d && !j.tight
  let s3 := s2.each ((s2.hallsOf k).filter (fun ph => (s2.hall ph).st = .running)) (fun s ph => s.checkBuffers k ph)
  let s4 := if (s3.sl k).land.quiesce then s3.checkQuiesce k else s3
  let s5 := if (s4.sl k).land.commit then s4.checkCoverage k else s4
  let s6 := if ok then s5.setReady k j (s5.rawOf k ((s5.sl k).land.a + BitVec.ofNat 64 j.need))
    else ((s5.updSl k (fun x => { x with marks := noteMark x.marks x.land.ord })).updLand k (fun l => { l with
        holdPend := true, raised := true, launch := j.launch
        cause := match j.block with
          | some 0 => 0
          | some c => if j.need ≤ d then c else if j.align then 1 else 0
          | none => if j.align && d < j.need then 1 else 0 })).markLinks k (s5.sl k).land.ord none
  let s7 := s6.updLand k (fun l => if l.holdOrd ≠ l.ord then { l with cause := 4 } else l)
  if (s7.sl k).land.commit || (s7.sl k).land.quiesce then s7.sendCommit k else s7

/-- The landing that the tables of the running flights give next, for a part on which no hall has issued its LAND
(10 R421, R423). Log 23 (DEDUCED). -/
def State.openFromTable (s : State) (k : Nat) : State :=
  match (s.flightsRunning k).head?.bind (fun f => f.2.shape) with
  | none => s
  | some x =>
    let s1 := s.waitUntil (s.rawOf k x.a)
    if s1.now < s1.rawOf k x.a then s1 else s1.startLanding k x

/-- The report of slice `k`, at D. -/
def State.reportLanding (s : State) (k : Nat) : State :=
  let s0 := if (s.sl k).phase = .running then s.openFromTable k else s
  let x := s0.sl k
  if x.phase = .landing && !x.land.reported then
    let t := s0.rawOf k (x.land.a + BitVec.ofNat 64 x.land.d)
    let s1 := s0.waitUntil t
    if s1.now < t then s1 else s1.reportNow k
  else s0

/-- LANDING_REPORT (R63). -/
def execLandingReport (slice : BitVec 8) (s : State) : Out := .next (s.reportLanding slice.toNat)

/-- IDLE_LANDING_START (R426): at slice tread 0 for ordinal 0, else TIM_IDLE_GAP after the last landing's end. -/
def execIdleLandingStart (slice : BitVec 8) (s : State) : Out :=
  let k := slice.toNat
  let x := s.sl k
  if x.admitted && x.epochSet && x.phase = .idle then
    let gap := (SMap.get 0x4000#17 s.tim.idleGap k).zeroExtend 64
    let w := SMap.get 0x00FF0080#32 s.tim.idleW k
    let a : Word64 := if x.started then x.nextA + gap else 0
    let s1 := s.waitUntil (s.rawOf k a)
    .next (if s1.now < s1.rawOf k a then s1
      else s1.startLanding k { a, w := 4 * ((w.extractLsb' 16 11).toNat + 1), d := 4 * (w.extractLsb' 0 12).toNat
                               idle := true })
  else .next s

/-- PART_READY (R118): a part that was not ready at D looks again, as late tokens and heads arrive; once only time is
missing it becomes ready when that has passed. -/
def State.lookAgain (s : State) (k : Nat) : State :=
  let x := s.sl k
  if (x.phase = .landing || x.phase = .held) && x.land.reported && !x.land.ready then
    let s1 := s.countTokens k
    let j := s1.judge k x.land.d
    match j.block with
    | some _ => s1
    | none =>
      let t := s1.rawOf k (x.land.a + BitVec.ofNat 64 j.need)
      let s2 := s1.waitUntil t
      if s2.now < t then s2 else (s2.setReady k j s2.now).sendHold k
  else s

/-- PART_READY (R118). -/
def execPartReady (slice : BitVec 8) (s : State) : Out := .next (s.lookAgain slice.toNat)

/-- At E: the landing is left, or held, or waits for its outcome (02 R64, R69; 12 R490, R502). -/
def State.endNow (s : State) (k : Nat) : State :=
  let x := s.sl k
  let save := match x.err.outcome with | some o => o.save | none => false
  if (x.land.commit || x.land.quiesce) && x.err.outcome.isNone then
    if x.land.holdPend then (s.beginHold k).sendHold k else s
  else if save && !x.land.released then s.standSaved k
  else if x.land.holdPend && !x.land.released then (s.beginHold k).sendHold k
  else if x.land.ready then s.leaveLanding k 0
  else s

/-- LANDING_END (R64). -/
def State.endLanding (s : State) (k : Nat) : State :=
  let s0 := if (s.sl k).phase = .landing && !(s.sl k).land.reported then s.reportLanding k else s
  let x := s0.sl k
  if (x.phase = .landing || x.phase = .held) && x.land.reported then
    let t := s0.endAt k
    let s1 := s0.waitUntil t
    if s1.now < t then s1 else s1.endNow k
  else s0

/-- LANDING_END (R64). -/
def execLandingEnd (slice : BitVec 8) (s : State) : Out := .next (s.endLanding slice.toNat)

end Sys2Proof.Machine
end

