-- ==== Sys2Proof/Machine/Recovery.lean ====
section
/-! DEFINITION. Test walks, scrubs, rejoins, fences and their notices (12 R495 to R499; 03 R120 to R126; 11 R458).
-/
namespace Sys2Proof.Machine

/-! ### Walks -/

/-- Treads in which repeated passes count (12 R495). -/
def walkWindow : Nat := 2 ^ 34

/-- The gallery's own record, without an error state. -/
def State.quietRec (s : State) (ph g : Nat) (cause : BitVec 16) (detail : Nat) : FRec :=
  { cause, src := srcHall ph, ph := BitVec.ofNat 8 ph, g := BitVec.ofNat 8 g, slice := (s.hall ph).mapped
    detail := BitVec.ofNat 64 detail }

/-- The first phase that failed, 0 for a pass (12 R495, Table 12.2). A walk that fails only by its corrected errors has
a phase that the spec does not name: a free value from 1 to 6. Log 28 (DESIGN CHOICE). -/
def walkPhase (w : WalkResult) (limit recent rep seed : Nat) : Nat :=
  if w.phase ≠ 0 then w.phase.toNat
  else if limit < w.corrected then 1 + (Config.freeByte 0 seed).toNat % 6
  else if rep ≤ recent then 7 else 0

/-- TEST_WALK_COMPLETE (R495). See 12 R496. -/
def execTestWalkComplete (ph : Fin 64) (g : Fin 16) (w : WalkResult) (s : State) : Out :=
  let gi := galIdx ph.val g.val
  let x := s.gal gi
  match x.walk with
  | none => .next s
  | some _ =>
    let recent := x.passes.filter (fun t => s.now < t + walkWindow)
    let p := walkPhase w s.flt.walkCe.toNat recent.length s.flt.repLim.toNat gi
    if p = 0 then
      let s1 := s.updGal gi (fun x => { x with walk := none, scrubbing := true, scrubEnd := s.now + 2560, passes := recent ++ [s.now] })
      let s2 := { s1 with flt := { s1.flt with walkPass := satInc s1.flt.walkPass } }
      .next (s2.raise (s2.quietRec ph.val g.val 0x020E (min 255 (recent.length + 1))))
    else
      let q := s.flt.seq
      let s1 := { s with flt := { s.flt with walkFail := satInc s.flt.walkFail } }
      let s2 := s1.raise (s1.quietRec ph.val g.val 0x020F p)
      .next (s2.updGal gi (fun x => { x with
        walk := none, walkFailed := true, walkRec := if s2.flt.seq = q then none else some s2.flt.last }))

/-! ### Scrub and stamp (06 R266, 12 R499) -/

/-- The store of a gallery written with zeros and fresh check bits, every poison bit clear. -/
def State.scrubStore (s : State) (gi : Nat) : State :=
  let s1 := s.zeroRange (storeAddr gi 0) (storeAddr gi storeBytes)
  let s2 := { s1 with upsets := s1.upsets.filter (fun u =>
    match u.site with | .store g _ _ => g ≠ gi | .istore _ _ _ | .acc _ _ _ | .alcove _ _ | .hbm _ _ => true) }
  s2.updGal gi (fun g => { g with poisoned := [] })

/-- The stamp of a unit of hall `ph`: FLT_EPOCH of the slice in HAL_VMAP.slice, 0 when HAL_VMAP.en is 0. -/
def State.stampOf (s : State) (ph : Nat) : Word :=
  match (s.hall ph).mapped with
  | none => 0
  | some k => (s.sl k).err.epoch

/-- GALLERY_SCRUB_COMPLETE (R499): after 2,560 treads of scrub the gallery is stamped and is rejoining. Log 118
(DEDUCED). -/
def execGalleryScrubComplete (ph : Fin 64) (g : Fin 16) (s : State) : Out :=
  let gi := galIdx ph.val g.val
  if (s.gal gi).scrubbing then
    let s1 := s.waitUntil (s.gal gi).scrubEnd
    if s1.now < (s.gal gi).scrubEnd then .next s1
    else
      let st := s1.stampOf ph.val
      .next ((s1.scrubStore gi).updGal gi (fun x => { x with
        scrubbing := false, cond := .rejoining, stamp := some st }))
  else .next s

/-! ### Rejoin (12 R499) -/

/-- A hall whose galleries are all healthy leaves testing, or withdrawn after an unfence. -/
def State.settleHall (s : State) (ph : Nat) : State :=
  let gs := (List.range 16).map (fun g => s.gal (galIdx ph g))
  let h := s.hall ph
  let walked := gs.all (fun g => g.walk.isNone && !g.scrubbing && !g.walkFailed && g.cond != .rejoining)
  if h.st = .testing && walked && gs.all (fun g => g.cond = .healthy) then s.updHall ph (fun h => { h with st := .idle })
  else if h.st = .withdrawn && !h.pwr.failed && walked && gs.all (fun g => g.cond != .fenced) then
    (s.updHall ph (fun h => { h with st := .idle })).reportHealth none
  else s

/-- The stamp of a unit, when it waits to be admitted. -/
def State.unitStamp (s : State) : RejoinUnit → Option Word
  | .hall ph => if (s.hall ph.val).st = .waking then (s.hall ph.val).pwr.stamp else none
  | .gallery ph g =>
    let x := s.gal (galIdx ph.val g.val)
    if x.cond = .rejoining && !x.scrubbing then x.stamp else none

/-- The hall of a unit. -/
def unitHall : RejoinUnit → Nat
  | .hall ph => ph.val
  | .gallery ph _ => ph.val

/-- A unit admitted: a gallery becomes healthy, and a hall leaving asleep becomes idle at pace high (13 R523). Log 29 (DEDUCED). -/
def State.admitUnit (s : State) : RejoinUnit → State
  | .hall ph => s.updHall ph.val (fun h => { h with
      st := .idle, reg := { h.reg with pace := 0 }, pwr := { h.pwr with stamp := none, wakeAt := none } })
  | .gallery ph g =>
    (s.updGal (galIdx ph.val g.val) (fun x => { x with cond := .healthy, stamp := none })).settleHall ph.val

/-- The launch set of the present landing of slice `k`, as it would be with the tokens that have come. -/
def State.launchNow (s : State) (k : Nat) : List Nat :=
  let t := s.countTokens k
  if t.branchLate k then [] else t.launchSet k

/-- The rejoin item of a unit fits before D on its hall, with the pace-point step that falls on the hall once the unit is admitted (02
R62, Table 02.5). Log 29 (DEDUCED). -/
def State.rejoinFits (s : State) (k : Nat) (u : RejoinUnit) : Bool :=
  let ph := unitHall u
  let l := (s.sl k).land
  let e := s.alignErr k
  let behind := if e < 0 then e.natAbs else 0
  let t := s.admitUnit u
  let step := if (t.paceHalls (t.launchNow k)).contains ph then 2048 else 0
  decide ((s.hall ph).iss.arrLag + SMap.get 0 l.items ph + 128 + step + behind ≤ l.d)

/-- A unit refused: a record, and it is scrubbed and stamped again. -/
def State.refuseUnit (s : State) (u : RejoinUnit) (stamp now : Word) : State :=
  let s1 := { s with flt := { s.flt with rejoinRef := satInc s.flt.rejoinRef } }
  let d : Word64 := now ++ stamp
  match u with
  | .hall ph =>
    (s1.raise { s1.quietRec ph.val 0xFF 0x0210 0 with detail := d }).updHall ph.val (fun h =>
      { h with pwr := { h.pwr with stamp := none, wakeAt := some (s.now + 2560) } })
  | .gallery ph g =>
    (s1.raise { s1.quietRec ph.val g.val 0x0210 0 with detail := d }).updGal (galIdx ph.val g.val) (fun x =>
      { x with scrubbing := true, scrubEnd := s.now + 2560, stamp := none })

/-- The units of halls for which `ok` holds, in ascending pH, that wait to be admitted. -/
def State.waitingUnits (s : State) (ok : Nat → Bool) : List RejoinUnit :=
  (List.finRange 64).flatMap (fun ph =>
    if ok ph.val then
      (.hall ph :: (List.finRange 16).map (fun g => .gallery ph g)).filter (fun u => (s.unitStamp u).isSome)
    else [])

/-- The units that a landing of slice `k` may admit: those of its halls and of unmapped ones (12 R499). -/
def State.landingUnits (s : State) (k : Nat) : List RejoinUnit :=
  s.waitingUnits (fun ph => match (s.hall ph).mapped with | none => (s.sl k).admitted | some j => j = k)

/-- What the present landing of slice `k` does with one unit: it is refused for an older epoch, admitted where its item fits, or
deferred (12 R499, 02 R62). -/
def State.rejoinUnit (s : State) (k : Nat) (u : RejoinUnit) : State :=
  match s.unitStamp u with
  | none => s
  | some st =>
    let now := (s.sl k).err.epoch
    if (s.hall (unitHall u)).mapped.isSome && st ≠ now then s.refuseUnit u st now
    else if s.rejoinFits k u then (s.updLand k (fun l => (l.spend (unitHall u) 128).flag 10)).admitUnit u
    else s.updLand k (fun l => l.flag 11)

/-- REJOIN_ADMISSION (R499): at a landing of the hall's slice, before D; an unmapped hall at a landing of any slice. Optional items are
spent in ascending pH (02 R62), so units that wait before this one come first. -/
def execRejoinAdmission (slice : BitVec 8) (u : RejoinUnit) (s : State) : Out :=
  let k := slice.toNat
  let us := s.landingUnits k
  if (s.sl k).phase = .landing && !(s.sl k).land.reported && us.contains u then
    .next (s.each (us.takeWhile (fun v => v ≠ u) ++ [u]) (fun s v => s.rejoinUnit k v))
  else .next s

/-- The units of unmapped halls that wait to be admitted. -/
def State.idleUnits (s : State) : List RejoinUnit := s.waitingUnits (fun ph => (s.hall ph).mapped.isNone)

/-- The next TREAD at which a hall without an admitted slice has a landing. -/
def State.toMultiple (s : State) : State := s.waitUntil ((s.now + 16383) / 16384 * 16384)

/-- IDLE_REJOIN_TICK (R499): with no slice admitted, the next multiple of 16,384 in TREAD counts as a landing. -/
def execIdleRejoinTick (s : State) : Out :=
  if s.admitted.isEmpty then
    let s1 := s.toMultiple
    .next (if s1.now % 16384 = 0 then s1.each s1.idleUnits (fun s u => s.admitUnit u) else s1)
  else .next s

/-! ### Fences (12 R497, 03 R123, R125) -/

/-- The admitted slices at whose landings hall `ph` may be fenced: its own, or any for an unmapped hall. -/
def State.fenceSlices (s : State) (ph : Nat) : List Nat :=
  s.admitted.filter (fun k => (s.hall ph).mapped.isNone || (s.hall ph).mapped = some k)

/-- A landing at which hall `ph` may be fenced. Where no slice whose landings count is admitted, each multiple of 16,384 in TREAD counts
as its landing, as 12 R499 has it for admissions. Log 101 (DESIGN CHOICE). -/
def State.landsNow (s : State) (ph : Nat) : Bool :=
  let ks := s.fenceSlices ph
  if ks.isEmpty then s.now % 16384 = 0
  else ks.any (fun k => (s.sl k).phase = .landing || (s.sl k).phase = .held)

/-- GALLERY_FENCE (R497): the gallery is fenced, the fence goes to the flash, the hall is withdrawn, and the fence notice
follows with the record of the failed walk. -/
def execGalleryFence (ph : Fin 64) (g : Fin 16) (s0 : State) : Out :=
  let gi := galIdx ph.val g.val
  let x := s0.gal gi
  let s := if x.walkFailed && (s0.fenceSlices ph.val).isEmpty then s0.toMultiple else s0
  if x.walkFailed && s.landsNow ph.val then
    let s1 := (s.undefine (storeAddr gi 0) (storeAddr gi storeBytes)).updGal gi (fun x =>
      { x with cond := .fenced, walkFailed := false, walkRec := none, v := [], x := [], p := [], f := [], banks := []
               active := {}, shadow := {}, istore := [], rx := [], pend := [], inflight := [] })
    let s2 := { s1 with sec := { s1.sec with flash := { s1.sec.flash with
      fences := SMap.set false s1.sec.flash.fences gi true, counter := s1.sec.flash.counter + 1 } } }
    let s3 := s2.updHall ph.val (fun h => ({ h with st := .withdrawn }).dropHeads)
    .next ((s3.notice 0x01 (BitVec.ofNat 64 gi) ((s3.hall ph.val).mapped).toList x.walkRec).reportHealth x.walkRec)
  else .next s

/-! ### Notices -/

/-- STEP_ABORTED_NOTICE (R498): once every walked hall of the slice has been admitted or withdrawn. -/
def execStepAbortedNotice (slice : BitVec 8) (s : State) : Out :=
  let k := slice.toNat
  let x := s.sl k
  if x.err.noticeDue && (s.hallsOf k).all (fun ph => (s.hall ph).st != .testing) then
    .next ((s.updSl k (fun x => { x with err := { x.err with noticeDue := false, notice := none } })).notice 0x03
      (BitVec.ofNat 64 k) [k] x.err.notice)
  else .next s

/-- LATE_NOTICE_WRITE (R458): the oldest waiting notice takes an entry that has become free. -/
def execLateNoticeWrite (q : Fin 16) (s : State) : Out :=
  let n := q.val
  match (s.queue n).notices with
  | [] => .next s
  | x :: rest =>
    if (s.queue n).free = 0 then .next s
    else .next ((s.updQueue n (fun q => { q with notices := rest })).complete n (x.entry s) true)

end Sys2Proof.Machine
end

