-- ==== Sys2Proof/Machine/MemCtl.lean ====
section
/-! DEFINITION. Memory controllers (06 R246 to R274): slot tables served frame by frame, HBM reads and writes with their
errors, commit regions, refresh, patrol scrub, and self-refresh.
-/
namespace Sys2Proof.Machine

/-! ### Lines of HBM (06 R249, R267, Table 06.7) -/

/-- A check error in line `n` of HBM. -/
def inHbm (n : Nat) : UpSite → Bool
  | .hbm l _ => l = n
  | .store _ _ _ | .istore _ _ _ | .acc _ _ _ | .alcove _ _ => false

/-- Who reads HBM: a scheduled operation of a gallery, a patrol scrub, or a DMA (12 Table 12.2, 0x0207). -/
inductive HbmReader where
  | sched (w : Who) | scrub | dma

/-- The type in the detail word. -/
def HbmReader.code : HbmReader → Nat
  | .sched _ => 0
  | .scrub => 1
  | .dma => 2

/-- The poison-list-full fault: the stack is unusable until the next part reset (06 Table 06.7), and a notice says so (11
Table 11.9). -/
def State.plistFull (s : State) (st : Nat) : State :=
  let s1 := s.updMc st (fun m => { m with unusable := true })
  let l := s1.runningSlices
  s1.raiseNotice { cause := 0x0208, src := srcMc st, errs := l, cls := 2, detail := BitVec.ofNat 64 st
                   slice := match l with | [k] => some k | _ => none } 0x06 (BitVec.ofNat 64 st) l

/-- A line added to the poison list of its stack, which holds 256 lines (15 Table 15.7). -/
def State.plistAdd (s : State) (n : Nat) : State :=
  let st := stackOfLine n
  if (s.mc st).plist.contains n then s
  else if 256 ≤ (s.mc st).plist.length then s.plistFull st
  else s.updMc st (fun m => { m with plist := m.plist ++ [n] })

/-- A line written whole with unpoisoned data leaves the poison list. -/
def State.plistDrop (s : State) (n : Nat) : State :=
  s.updMc (stackOfLine n) (fun m => { m with plist := m.plist.filter (fun x => x ≠ n) })

/-- The record of an uncorrectable HBM line (12 Table 12.2, 0x0207). -/
def State.hbmRec (s : State) (r : HbmReader) (n typ : Nat) : FRec :=
  let d := BitVec.ofNat 64 (n * 512 + typ * 2 ^ 48)
  match r with
  | .sched w => { s.galRec w 0x0207 2 false d with src := srcMc (stackOfLine n) }
  | .scrub | .dma => { cause := 0x0207, src := srcMc (stackOfLine n), detail := d }

/-- The check of a line at a read: what was corrected is counted and gone; an uncorrectable error is counted, listed and
recorded. The answer says whether an uncorrectable error was found. -/
def State.checkHbm (s : State) (r : HbmReader) (n : Nat) : State × Bool :=
  let hit := s.upsets.filter (fun u => inHbm n u.site)
  if hit.isEmpty then (s, false)
  else
    let st := stackOfLine n
    let s1 := { s with upsets := s.upsets.filter (fun u => !inHbm n u.site) }
    let s2 := s1.updMc st (fun m =>
      { m with ceDie := satAdd m.ceDie (hit.filter (fun u => u.ce && u.die)).length
               ceLink := satAdd m.ceLink (hit.filter (fun u => u.ce && !u.die)).length })
    if hit.any (fun u => !u.ce) then
      let s3 := (s2.updMc st (fun m => { m with ue := satInc m.ue })).plistAdd n
      (s3.raise (s3.hbmRec r n r.code), true)
    else (s2, false)

/-- A whole line of HBM written: fresh check bits, and the poison list follows the data (06 Table 06.7). -/
def State.hbmWrite (s : State) (n : Nat) (l : Line) (p : Bool) : State :=
  let s1 := { s.writeLine (n * 512) l with upsets := s.upsets.filter (fun u => !inHbm n u.site) }
  if p then s1.plistAdd n else s1.plistDrop n

/-! ### Commit regions (06 R270 to R274) -/

/-- The enabled region of a controller in whose logical range (`dbl` false) or shadow half range (`dbl` true) an offset
lies. -/
def MemCtl.regionAt (m : MemCtl) (off : Nat) (dbl : Bool) : Option Nat :=
  (List.range 8).find? (fun r =>
    let x := SMap.get {} m.cregs r
    let lo := x.base.toNat * 2 ^ 21 + (if dbl then x.lines * 512 else 0)
    x.en && lo ≤ off && off < lo + x.lines * 512)

/-- A line of HBM after the mapping of commit regions: a read goes to the live half, a scheduled write to the other
(06 R271). -/
def State.mapLine (s : State) (n : Nat) (write : Bool) : Nat :=
  let m := s.mc (stackOfLine n)
  match m.regionAt (n * 512) false with
  | none => n
  | some r =>
    let x := SMap.get {} m.cregs r
    if x.sel = write then n else n + x.lines

/-- A scheduled write to the shadow counted (06 R272). -/
def State.countShadow (s : State) (n : Nat) : State :=
  let st := stackOfLine n
  match (s.mc st).regionAt (n * 512) false with
  | none => s
  | some r => s.updCreg st r (fun x => { x with armed := true, wcnt := satInc x.wcnt })

/-! ### Slot table entries (06 Table 06.5) -/

/-- An action of a slot table that has come due: its slice tread, where it stands, and the entry. -/
structure SlotDue where
  at_ : Nat
  flight : Nat
  seg : Nat
  ent : Nat
  bits : BitVec 128
  deriving DecidableEq, Repr

/-- The slice tread of the next repetition of an entry (06 R251). -/
def slotTread (e0 : Word64) (base done : Nat) (x : BitVec 128) : Word64 :=
  e0 + BitVec.ofNat 64 (16 * (base + slotFrame x + done * slotPeriod x))

/-- A slot table may act at slice tread `t`: not past the end tread of a landing that its slice has not left. -/
def State.mayAct (s : State) (k : Nat) (t : Word64) : Bool :=
  let x := s.sl k
  match x.phase with
  | .idle | .running => true
  | .landing | .held | .saved | .failed =>
    decide ((t - (x.land.a + BitVec.ofNat 64 x.land.w)).toInt < 0)

/-- How many repetitions of an entry have come due at slice tread `now`, the first at `first`. -/
def repsDue (now first : Word64) (x : BitVec 128) : Nat :=
  if (now - first).toInt < 0 then 0
  else if slotPeriod x = 0 then 1
  else min (slotCount x) ((now - first).toNat / (16 * slotPeriod x) + 1)

/-- The actions of a flight's slot table that are due at this tread. -/
def State.slotsDue (s : State) (f : McFlight) : List SlotDue :=
  let now := s.sliceTread f.slice
  f.segs.zipIdx.flatMap (fun (g, i) =>
    (g.ents.zip g.prog).zipIdx.flatMap (fun ((x, done), j) =>
      (List.range (repsDue now (slotTread f.e0 g.base 0 x) x - done)).filterMap (fun k =>
        let t := slotTread f.e0 g.base (done + k) x
        if s.mayAct f.slice t && slotKind x ≠ 0 then
          some { at_ := s.rawOf f.slice t, flight := f.flight, seg := i, ent := j, bits := x }
        else none)))

/-- A frame of the flight begins at this tread (06 R251). Log 17 (DESIGN CHOICE). -/
def State.frameStarts (s : State) (f : McFlight) : Bool := ((s.sliceTread f.slice - f.e0).toNat) % 16 = 0

/-- An action put in list order: by its tread, then by flight and place. The order of actions of several flights that are due at one
tread is that of the controller's flights. Log 98 (DESIGN CHOICE). -/
def putDue (d : SlotDue) : List SlotDue → List SlotDue
  | [] => [d]
  | x :: xs => if d.at_ < x.at_ then d :: x :: xs else x :: putDue d xs

/-- The actions due of every flight whose frame begins, in list order. -/
def State.dueAt (s : State) (c : Nat) : List SlotDue :=
  ((((s.mc c).flights.filter (fun f => s.frameStarts f)).flatMap (fun f => s.slotsDue f))).foldl
    (fun l d => putDue d l) []

/-- A repetition of an entry done. -/
def MemCtl.advance (m : MemCtl) (d : SlotDue) : MemCtl :=
  { m with flights := m.flights.map (fun f => if f.flight = d.flight then
      { f with segs := f.segs.zipIdx.map (fun (g, i) => if i = d.seg then
          { g with prog := g.prog.zipIdx.map (fun (n, j) => if j = d.ent then n + 1 else n) } else g) } else f) }

/-! ### Requests (06 R256, 05 R201, R202, R218, R219) -/

/-- The request that an entry serves: the oldest whose kind, vh and g agree and that no earlier entry of the list takes
(06 R256). -/
def MemCtl.matching (m : MemCtl) (d : SlotDue) (tied : List Nat) : Option MemReq :=
  m.reqs.find? (fun r =>
    r.isKind (slotKind d.bits) && r.vh = slotVh d.bits && r.gi % 16 = slotG d.bits && r.flight = d.flight && !tied.contains r.id)

/-- Who asked. -/
def MemReq.who (r : MemReq) : Who :=
  { ph := r.gi / 16, g := r.gi % 16, flight := BitVec.ofNat 16 r.flight, baddr := BitVec.ofNat 32 r.baddr }

/-- The line numbers of a request. -/
def MemReq.hbmLines (r : MemReq) : List Nat := (List.range r.n).map (fun i => r.off / 512 + i)

/-- The windows of the share that a virtual hall carries: base and length. See 06 R257. -/
def State.windowsOf (s : State) (f vh : Nat) : List (Nat × Nat) :=
  match (s.flight f).bind (fun x => x.shares.find? (fun y => y.vh.toNat = vh)) with
  | some y => y.windows
  | none => []

/-- Why a request is refused at its slot, none when it may be made (05 R201, R202; 06 R271). -/
def State.refusal (s : State) (c : Nat) (r : MemReq) (mask : BitVec 64) : Option (BitVec 16 × Word64) :=
  let ls := r.hbmLines
  let off := BitVec.ofNat 64 r.off
  let inWin : Bool :=
    match (s.windowsOf r.flight r.vh)[r.win - 1]? with
    | some (b, n) => b ≤ r.off && r.off + 512 * r.n ≤ b + n
    | none => false
  if r.win ≠ 0 ∧ !inWin then some (0x0103, off + BitVec.ofNat 64 (r.win * 2 ^ 48))
  else if !ls.all (fun n => stackOfLine n = c && mask.getLsbD (pcOf n)) then some (0x0102, off)
  else if ls.any (fun n => ((s.mc c).regionAt (n * 512) true).isSome) then some (0x0104, off)
  else none

/-- Line `i` of a request delivered: to a store or an instruction store of the controller's die, or by stairwell
(06 R250). -/
def State.deliverReq (s : State) (c : Nat) (r : MemReq) (i : Nat) (l : Line) (p : Bool) : State :=
  let src := dieOfStack c
  let dst := dieOfHall (r.gi / 16)
  let poison := p || r.poison
  let place : StwTo := match r.kind with
    | .cfetch => .code r.gi r.flight (r.store + 16 * i)
    | .hld | .hst => .store r.gi ((r.store + 512 * i) % 2 ^ 21) false
  let x : StwLine := { src, dst, sched := true, fails := 0, due := 0, line := l, poison, dest := place, at_ := r.at_, floor := r.floor }
  if src = dst then s.landLine x else s.sendLine x

/-- A scheduled read of one line: its contents and whether it is poisoned by an error found now. -/
def State.readOne (s : State) (r : MemReq) (c i n : Nat) (listed : Bool) : State :=
  let (s1, bad) := s.checkHbm (.sched r.who) n
  s1.deliverReq c r i (s1.schedLine (n * 512)) (bad || listed)

/-- A read served. Lines of the poison list, or of an unusable stack, are poisoned, with one record for the
operation. -/
def State.serveRead (s : State) (c : Nat) (r : MemReq) : State :=
  let ls := r.hbmLines.map (fun n => s.mapLine n false)
  let m := s.mc c
  let listed := fun (n : Nat) => m.unusable || m.plist.contains n
  let s1 := match ls.find? listed with
    | none => s
    | some n => s.raise (s.hbmRec (.sched r.who) n 3)
  s1.each ls.zipIdx (fun s (n, i) => s.readOne r c i n (listed n))

/-- A write served: the lines as they stood at issue. -/
def State.serveWrite (s : State) (r : MemReq) : State :=
  s.each r.hbmLines.zipIdx (fun s (n, i) =>
    let x := r.lines.getD i (0, true)
    (s.hbmWrite (s.mapLine n true) x.1 x.2).countShadow n)

/-- A refused request: a record, and zeros marked poisoned for every line to be read. -/
def State.serveRefused (s : State) (c : Nat) (r : MemReq) (cause : BitVec 16) (d : Word64) : State :=
  let s1 := s.raise { s.galRec r.who cause 1 false d with src := srcMc c }
  if r.kind = .hst then s1 else s1.each (List.range r.n) (fun s i => s.deliverReq c r i 0 true)

/-- A request served by its entry. -/
def State.serve (s : State) (c : Nat) (r : MemReq) (mask : BitVec 64) : State :=
  let s1 := s.updMc c (fun m => { m with reqs := m.reqs.filter (fun x => x.id ≠ r.id) })
  match s1.refusal c r mask with
  | some (cause, d) => s1.serveRefused c r cause d
  | none => if r.kind = .hst then s1.serveWrite r else s1.serveRead c r

/-! ### Refresh (06 R260 to R264) -/

/-- Pseudo-channels of a mask. -/
def pcsOf (mask : BitVec 64) : List Nat := (List.range 64).filter (fun p => mask.getLsbD p)

/-- A refresh unit made on a pseudo-channel: its debt falls by 1, never below −8 (06 R262). -/
def MemCtl.refresh (m : MemCtl) (pc : Nat) : MemCtl := { m with debt := SMap.upd 0 m.debt pc (fun d => max (-8) (d - 1)) }

/-- The refresh interval of a band (06 Table 06.6). -/
def bandTI (band : BitVec 2) : Nat := if band = 0 then 6240 else if band = 1 then 3120 else 1560

/-! ### Memory frames -/

/-- What a frame has done: the pseudo-channels used or kept for a delayed entry, the lag of the action carried out last, the longest
delay of one that waits, and the requests that its entries take. -/
structure FrameAcc where
  s : State
  taken : BitVec 64
  lag : Option Nat := none
  waitLag : Nat := 0
  tied : List Nat := []

/-- Lines of the memory delivery buffer of gallery `gi`: those on their way to it from a stack, and those that port T has not taken
(06 R245). -/
def State.inDelivery (s : State) (gi : Nat) : Nat :=
  ((s.xport.waiting ++ s.xport.flying).filter (fun l => l.src < 4 && (match l.dest with
    | .store g _ _ => g = gi
    | .hall _ _ | .bayw _ _ _ _ _ | .hst _ _ _ | .code _ _ _ | .copy _ _ _ _ _ _ _ | .token _ _ _ _ => false))).length
    + ((s.gal gi).memOut.filter (fun t => s.now ≤ t)).length

/-- The data and the room of a request are there (02 R44): the lines of a write, the delivery buffer's 32 lines for a load. -/
def State.reqReady (s : State) (r : MemReq) : Bool :=
  match r.kind with
  | .hst => r.missing = 0
  | .hld => decide (s.inDelivery r.gi + r.n ≤ 32)
  | .cfetch => true

/-- One due action of the frame: it waits while a pseudo-channel of its mask is kept or its data or room are not there, and is
carried out else (02 R44, 06 R256). Its request is its own also while it waits. -/
def slotAct (c : Nat) (a : FrameAcc) (d : SlotDue) : FrameAcc :=
  let s := a.s
  let m := s.mc c
  let now := s.now
  let mask : BitVec 64 := if slotKind d.bits = 4 then 0 else slotMask d.bits
  let held := pcsOf mask |>.any (fun p => now < SMap.get 0 m.busy p)
  let req := m.matching d a.tied
  let wait := { a with taken := a.taken ||| mask
                       tied := match req with | some r => r.id :: a.tied | none => a.tied }
  let waitLate := { wait with waitLag := max a.waitLag (now - d.at_) }
  let done := fun (t : State) => { wait with lag := some (now - d.at_), s := t.updMc c (fun m => m.advance d) }
  if held || a.taken &&& mask ≠ 0 then waitLate
  else if slotKind d.bits = 3 then
    done (s.updMc c (fun m => (pcsOf mask).foldl (fun m p =>
      { m.refresh p with busy := SMap.set 0 m.busy p (now + 32) }) m))
  else if slotKind d.bits = 4 then
    done (s.updMc c (fun m => { m with flights := m.flights.map (fun f => if f.flight = d.flight then
      { f with fetch := some ((slotMask d.bits).toNat,
          ((f.segs.getD d.seg { base := 0, ents := [], prog := [] }).base + slotFrame d.bits)) } else f) }))
  else
    match req with
    | none => waitLate
    | some r => if s.reqReady r then done (s.serve c r mask) else waitLate

/-- Opportunistic refresh (06 R258, R262): a pseudo-channel in debt that no entry holds in two frames is refreshed. -/
def MemCtl.opportune (m : MemCtl) (now : Nat) (taken : BitVec 64) : MemCtl :=
  (List.range 64).foldl (fun m p =>
    if taken.getLsbD p || decide (now < SMap.get 0 m.busy p) then { m with opp := SMap.set 0 m.opp p 0 }
    else if SMap.get 0 m.debt p ≤ 0 then { m with opp := SMap.set 0 m.opp p 0 }
    else
      let t := SMap.get 0 m.opp p
      if t = 0 then { m with opp := SMap.set 0 m.opp p (now + 1) }
      else if t + 15 ≤ now then { m.refresh p with opp := SMap.set 0 m.opp p 0 }
      else m) m

/-- The TREAD of the next frame of a controller: of a frame of one of its flights, else the next multiple of 16. -/
def State.nextFrame (s : State) (c : Nat) : Nat :=
  let t := max s.now (s.mc c).next
  let ahead := (s.mc c).flights.map (fun f =>
    let p := (BitVec.ofNat 64 t - (s.sl f.slice).epoch - (s.sl f.slice).offset - f.e0).toNat % 16
    t + (16 - p) % 16)
  match ahead with
  | [] => (t + 15) / 16 * 16
  | x :: xs => xs.foldl min x

/-- MEMORY_FRAME (R256): the next frame of the controller. `ups` lists errors that have arisen in the lines it reads. -/
def execMemoryFrame (stack : Fin 14) (ups : List Upset) (s : State) : Out :=
  let c := stack.val
  if !s.hasStack c then .fault .absentUnit
  else if (s.mc c).selfref || !s.mainOn then .next s
  else
    let s1 := (s.waitUntil (s.nextFrame c)).arise ups
    let s2 := s1.updMc c (fun m => { m with next := s1.now + 1, busy := m.busy.filter (fun e => s1.now < e.2) })
    let lag0 := decide ((s2.mc c).lagCur = 0) && decide ((s2.mc c).waitLag = 0)
    let a := (s2.dueAt c).foldl (slotAct c) { s := s2, taken := 0 }
    .next (a.s.updMc c (fun m0 =>
      let m := { m0 with waitLag := a.waitLag }
      let m1 := match a.lag with
        | none => m
        | some n => { m with lagCur := satAdd 0 n, lagMax := bvMax m.lagMax (satAdd 0 n) }
      if lag0 then m1.opportune s1.now a.taken else { m1 with opp := [] }))

/-- Entries of a segment read from HBM: to an entry of kind 0, 1,024 at most (06 R254). Log 18 (DESIGN CHOICE). -/
def State.readSlots (s : State) (off : Nat) : List (BitVec 128) :=
  ((List.range 1024).map (fun i => (BitVec.ofNat 128 (leNat (s.readBytes (off + 16 * i) 16)) : BitVec 128))).takeWhile
    (fun x => slotKind x ≠ 0)

/-- The entries of a controller's slot table that are not spent; the table holds 16,384 (06 R245). -/
def MemCtl.entries (m : MemCtl) : Nat :=
  m.flights.foldl (fun n f => f.segs.foldl (fun n g =>
    n + ((g.ents.zip g.prog).filter (fun (x, done) => done < slotCount x)).length) n) 0

/-- SLOT_SEGMENT_ARRIVAL (R254): the segment that a continuation asked for is present; before a launch, the first
segment of a resident flight is. Its last line finds an unreserved slot and its places (R258, R240), and its entries room. -/
def execSlotSegmentArrival (stack : Fin 14) (flight : BitVec 12) (s : State) : Out :=
  let c := stack.val
  let f := flight.toNat
  if !s.hasStack c then .fault .absentUnit
  else
    match (s.mc c).flights.find? (fun x => x.flight = f && x.fetch.isSome) with
    | some x =>
      match x.fetch with
      | none => .next s
      | some (off, base) =>
        let es := s.readSlots off
        match if (s.mc c).entries + es.length ≤ 16384 then s.unschedRead (off + 16 * es.length) (dieOfStack c) else none with
        | none => .next s
        | some s1 =>
          .next (s1.updMc c (fun m => { m with flights := m.flights.map (fun y => if y.flight = f then
            { y with fetch := none, segs := y.segs ++ [{ base, ents := es, prog := es.map (fun _ => 0) }] } else y) }))
    | none =>
      .next (s.updFlight f (fun x =>
        if x.slotTabs.any (fun t => t.1 = c) && !x.segsIn.contains c then { x with segsIn := x.segsIn ++ [c] } else x))

/-! ### Patrol scrub (06 R268) -/

/-- The pseudo-channels that a patrol scrub reads at this tread: those whose next line is due and that are open (R258). -/
def State.scrubPcs (s : State) (c : Nat) : List Nat :=
  (List.range 64).filter (fun p => decide (SMap.get 0 (s.mc c).scrubDue p ≤ s.now) && s.pcOpen c p)

/-- The TREAD at which the first pseudo-channel of a controller is due for its next scrub read, at the start of a frame. -/
def State.patrolTime (s : State) (c : Nat) : Nat :=
  ceilTo 16 (max s.now ((List.range 63).foldl (fun t p => min t (SMap.get 0 (s.mc c).scrubDue (p + 1))) (SMap.get 0 (s.mc c).scrubDue 0)))

/-- The row after the last line read, and the TREAD of the next read, on each of the pseudo-channels read (R268). -/
def MemCtl.scrubbed (m : MemCtl) (pcs : List Nat) (now : Nat) : MemCtl :=
  let i := 16 * m.scrubInt.toNat
  { m with scrubPtr := pcs.foldl (fun l p => SMap.upd 0 l p (fun n => (n + 1) % 2621440)) m.scrubPtr
           scrubDue := pcs.foldl (fun l p => SMap.set 0 l p ((now / i + 1) * i)) m.scrubDue }

/-- PATROL_SCRUB_READ (R268): one line on each pseudo-channel every MEM_SCRUB.interval frames, in a frame that leaves it open. -/
def execPatrolScrubRead (stack : Fin 14) (ups : List Upset) (s : State) : Out :=
  let c := stack.val
  if !s.hasStack c then .fault .absentUnit
  else
    let m := s.mc c
    if !m.scrubEn || m.selfref || !s.mainOn then .next s
    else
      let s0 := (s.waitUntil (s.patrolTime c)).arise ups
      let pcs := s0.scrubPcs c
      let s1 := s0.each pcs (fun s p => (s.checkHbm .scrub (c * stackLines + SMap.get 0 m.scrubPtr p * 64 + p)).1)
      .next (s1.updMc c (fun m => m.scrubbed pcs s0.now))

/-! ### Refresh debt -/

/-- REFRESH_DEBT_TICK (R262): at the next multiple of TI in TREAD that has brought no tick yet every debt rises by 1, to 32 at most; not in
self-refresh. -/
def execRefreshDebtTick (stack : Fin 14) (s : State) : Out :=
  let c := stack.val
  if !s.hasStack c then .fault .absentUnit
  else if (s.mc c).selfref || !s.mainOn then .next s
  else
    let ti := bandTI (s.mc c).band
    let t := ceilTo ti (match (s.mc c).tickAt with | some x => max s.now (x + 1) | none => s.now)
    let s1 := s.waitUntil t
    if s1.now < t then .next s
    else
      .next (s1.updMc c (fun m =>
        { m with debt := (List.range 64).foldl (fun d p => SMap.upd 0 d p (fun x => min 32 (x + 1))) m.debt, tickAt := some t }))

/-- URGENT_REFRESH (R264): a debt of 32 is met by 8 units at once, in 256 treads. -/
def execUrgentRefresh (stack : Fin 14) (pc : Fin 64) (s : State) : Out :=
  let c := stack.val
  let p := pc.val
  if !s.hasStack c then .fault .absentUnit
  else if SMap.get 0 (s.mc c).debt p = 32 && !(s.mc c).selfref && s.mainOn then
    .next (s.updMc c (fun m =>
      { m with debt := SMap.set 0 m.debt p 24, busy := SMap.set 0 m.busy p (s.now + 256), urgent := satInc m.urgent }))
  else .next s

/-! ### Self-refresh (06 R259) -/

/-- A running or launch-candidate flight holds entries on controller `c`. -/
def State.mcUsed (s : State) (c : Nat) : Bool :=
  s.resident.any (fun e => (e.2.run.isSome || e.2.cand) && e.2.slotTabs.any (fun t => t.1 = c))

/-- SELF_REFRESH_ENTRY (R259). -/
def execSelfRefreshEntry (stack : Fin 14) (s : State) : Out :=
  let c := stack.val
  if !s.hasStack c then .fault .absentUnit
  else if s.mcUsed c || !s.mainOn then .next s
  else .next (s.updMc c (fun m => { m with selfref := true, opp := [] }))

/-- SELF_REFRESH_EXIT (R259): the debt is 0. -/
def execSelfRefreshExit (stack : Fin 14) (s : State) : Out :=
  let c := stack.val
  if !s.hasStack c then .fault .absentUnit
  else if (s.mc c).selfref then .next (s.updMc c (fun m => { m with selfref := false, debt := [], opp := [], busy := [] }))
  else .next s

end Sys2Proof.Machine
end

