-- ==== Sys2Proof/Machine/PartMem.lean ====
section
/-! DEFINITION. Part memory as DMA and storage traffic reach it (06 R246, R247, R274; 11 R469 to R471): the checks of a
part-side range, reads and writes.
-/
namespace Sys2Proof.Machine

/-! ### Ranges -/

/-- The first offset of a range that is a hole or lies in the store of a fenced gallery, or that leaves the one memory in
which the range begins (06 R247, 11 R469). -/
def State.rangeHole (s : State) (off len : Nat) : Option Nat :=
  if off < hbmBytes s.cfg.grade then
    if off + len ≤ hbmBytes s.cfg.grade then none else some (hbmBytes s.cfg.grade)
  else
    let i := (off - storeBase) / 0x200000
    let o := (off - storeBase) % 0x200000
    if off < storeBase ∨ 1024 ≤ i ∨ storeBytes ≤ o then some off
    else if (s.gal i).cond = .fenced then some off
    else if o + len ≤ storeBytes then none else some (off + (storeBytes - o))

/-- The base of the first enabled commit region of which a range touches the logical range (`dbl` false) or the second half
(`dbl` true), and whether it is armed. -/
def State.touches (s : State) (off len : Nat) (dbl : Bool) : Option (Nat × Bool) :=
  if hbmBytes s.cfg.grade ≤ off then none
  else
    (((List.range (stacksOf s.cfg.grade)).flatMap (fun c => (s.mc c).cregs)).filterMap (fun e =>
      let x := e.2
      let base := x.base.toNat * 2 ^ 21
      let lo := base + (if dbl then x.lines * 512 else 0)
      if x.en && off < lo + x.lines * 512 && lo < off + len then some (base, x.armed) else none)).head?

/-- Why a transfer may not touch a range, with the detail of its completion (11 Table 11.8): address, commit shadow, or,
for a write, an armed region. -/
def State.rangeBad (s : State) (off len : Nat) (write : Bool) : Option (BitVec 16 × Word64) :=
  match s.rangeHole off len with
  | some a => some (0x0002, BitVec.ofNat 64 a)
  | none =>
    match s.touches off len true with
    | some (b, _) => some (0x0010, BitVec.ofNat 64 b)
    | none =>
      match s.touches off len false with
      | some (b, true) => if write then some (0x0003, BitVec.ofNat 64 b) else none
      | _ => none

/-! ### Pieces of a range by line -/

/-- The lines of a range: for each its first byte in the range, that byte's place in the transfer, and the bytes. -/
def linePieces (off len : Nat) : List (Nat × Nat × Nat) :=
  (List.range ((off % 512 + len + 511) / 512)).map (fun i =>
    let lo := max off (off / 512 * 512 + 512 * i)
    let hi := min (off + len) (off / 512 * 512 + 512 * (i + 1))
    (lo, lo - off, hi - lo))

/-- An offset of HBM as DMA reaches it: the live half of a commit region (06 R274). -/
def State.dmaAddr (s : State) (off : Nat) : Nat := s.mapLine (off / 512) false * 512 + off % 512

/-! ### Writes -/

/-- Bytes written within one line: a whole line that is not poisoned clears the line's poison (11 R471); poisoned bytes
poison it. -/
def State.partPiece (s : State) (off : Nat) (bs : List Byte) (poison : Bool) : State :=
  if storeBase ≤ off then
    let i := (off - storeBase) / 0x200000
    let o := (off - storeBase) % 0x200000
    s.storeWrite i o bs poison
  else
    let a := s.dmaAddr off
    if bs.length = 512 then s.hbmWrite (a / 512) (BitVec.ofNat 4096 (leNat bs)) poison
    else if poison then (s.writeBytes a bs).plistAdd (a / 512) else s.writeBytes a bs

/-- Bytes written to part memory by a DMA or the storage engine; `bad` says of a place and a length whether those bytes are
poisoned. -/
def State.partWrite (s : State) (off : Nat) (bs : List Byte) (bad : Nat → Nat → Bool) : State :=
  s.each (linePieces off bs.length) (fun s (a, at_, n) => s.partPiece a ((bs.drop at_).take n) (bad at_ n))

/-- A range of part memory left undefined by a transfer that was cut short (11 R441, R472). -/
def State.partUndefine (s : State) (off len : Nat) : State :=
  s.each (linePieces off len) (fun s (a, _, n) =>
    let b := if storeBase ≤ a then a else s.dmaAddr a
    s.undefine b (b + n))

/-! ### When unscheduled traffic moves (03 R94; 06 R238, R240, R258) -/

/-- The last bytes of a transfer of `span` bytes from `off` move: port T of the store, after the uses that hold it, or the line's
pseudo-channel is open, and the line finds a place between its die and the atrium. -/
def State.unschedXfer (s : State) (off span : Nat) (write : Bool) : Option State :=
  let hop := fun (die : Nat) => if write then (9, die) else (die, 9)
  if storeBase ≤ off then
    let gi := (off - storeBase) / 0x200000
    let s1 := s.waitUntil (freeFrom (SMap.get 0 (s.gal gi).busy 4))
    if s1.portFree gi then s1.unschedPlace [hop (dieOfHall (gi / 16))] else none
  else
    let a := s.dmaAddr (off + span - 1)
    let c := stackOf a
    if s.pcOpen c (pcOf (a / 512)) then s.unschedPlace [hop (dieOfStack c)] else none

/-- The range of a transfer into the part, which scheduled operations do not see until the transfer's token counts (11 R477, R478). -/
def State.hideRange (s : State) (off span : Nat) (tok : Option (Nat × Word)) : State :=
  let t := s.freeCtr + 1
  let new : List Unseen :=
    if storeBase ≤ off ∨ (s.dmaAddr off = off ∧ s.dmaAddr (off + span - 1) = off + span - 1) then [⟨off, off + span, t, tok⟩]
    else (linePieces off span).map (fun (a, _, n) => ⟨s.dmaAddr a, s.dmaAddr a + n, t, tok⟩)
  { s with unseen := new ++ s.unseen, freeCtr := t }

/-- Scheduled operations see a range as it is again. -/
def State.showRange (s : State) (tag : Nat) : State := { s with unseen := s.unseen.filter (fun u => u.tag ≠ tag) }

/-! ### Reads -/

/-- What a read of part memory gives: the bytes, the poisoned pieces (place and length), the first line with an
uncorrectable HBM error, and the place of the first piece that was poisoned before. -/
structure PartRead where
  s : State
  bytes : List Byte := []
  poison : List (Nat × Nat) := []
  bad : Option Nat := none
  old : Option Nat := none

/-- One line read. -/
def partReadPiece (r : PartRead) (x : Nat × Nat × Nat) : PartRead :=
  let (off, at_, n) := x
  let s := r.s
  if storeBase ≤ off then
    let i := (off - storeBase) / 0x200000
    let line := (off - storeBase) % 0x200000 / 512
    let s1 := s.checkStore { ph := i / 16, g := i % 16 } line
    { r with s := s1, bytes := r.bytes ++ s1.readBytes off n
             poison := if s1.storePoison i line then r.poison ++ [(at_, n)] else r.poison
             old := r.old.or (if s1.storePoison i line then some at_ else none) }
  else
    let a := s.dmaAddr off
    let m := s.mc (stackOf a)
    let listed := m.unusable || m.plist.contains (a / 512)
    let (s1, bad) := s.checkHbm .dma (a / 512)
    { r with s := s1, bytes := r.bytes ++ s1.readBytes a n
             poison := if listed || bad then r.poison ++ [(at_, n)] else r.poison
             bad := match r.bad with | some b => some b | none => if bad then some (off / 512 * 512) else none
             old := r.old.or (if listed then some at_ else none) }

/-- Bytes read from part memory by a DMA or the storage engine. -/
def State.partRead (s : State) (off len : Nat) : PartRead := (linePieces off len).foldl partReadPiece { s }

end Sys2Proof.Machine
end

