-- ==== Sys2Proof/Machine/Parcel.lean ====
section
/-! DEFINITION. Parcels (08 R322 to R331): headers and their check, frames of a parcel, and frames into and out of bays.
-/
namespace Sys2Proof.Machine

/-! ### Headers (08 R323, R324, Table 08.2) -/

/-- One bit step of the header check (08 R324): polynomial 0x1021, most significant bit first. -/
def crc16Bit (c : BitVec 16) : BitVec 16 := if c.msb then (c <<< 1) ^^^ 0x1021#16 else c <<< 1

/-- One byte of the header check. -/
def crc16Byte (c : BitVec 16) (b : Byte) : BitVec 16 :=
  crc16Bit (crc16Bit (crc16Bit (crc16Bit (crc16Bit (crc16Bit (crc16Bit (crc16Bit (c ^^^ (b.zeroExtend 16 <<< 8)))))))))

/-- The CRC-16 of R324 over a byte string. -/
def crc16 (bs : List Byte) : BitVec 16 := bs.foldl crc16Byte 0xFFFF

/-- A header with its check written. -/
def hdrSeal (h : BitVec 128) : BitVec 128 :=
  crc16 (bvBytes 14 h) ++ h.extractLsb' 0 112

/-- The header check holds (08 Table 08.9). -/
def hdrOk (h : BitVec 128) : Bool := crc16 (bvBytes 14 h) = h.extractLsb' 112 16

/-- A header of Table 08.2. -/
def mkHdr (slice cls kind len : Nat) (chip map : BitVec 16) (pid : Word) (count : Nat) : BitVec 128 :=
  hdrSeal ((0#16) ++ BitVec.ofNat 16 count ++ pid ++ map ++ chip ++ BitVec.ofNat 16 len
    ++ BitVec.ofNat 8 (64 * cls + kind) ++ BitVec.ofNat 8 slice)

/-- Frames of a parcel with a payload of `len` bytes (08 R325). -/
def parcelFrames (len : Nat) : Nat := (16 + len + 311) / 312

/-- Payload lines of `len` bytes. -/
def payLines (len : Nat) : Nat := (len + 511) / 512

/-! ### Frames of a bay -/

/-- The payload of a bay as one number, byte 0 lowest. -/
def Bay.payload (b : Bay) (len : Nat) : Nat :=
  ((List.range (payLines len)).foldr (fun l a => (b.line l).toNat + 2 ^ 4096 * a) 0) % 2 ^ (8 * len)

/-- The header as it leaves: poison map from the bay's lines, check computed (08 R326). -/
def Bay.hdrOut (b : Bay) : BitVec 128 :=
  let n := payLines (hdrLen b.hdr)
  let map := b.poison.truncate 16 &&& BitVec.ofNat 16 (2 ^ n - 1)
  hdrSeal ((b.hdr &&& ~~~(0xFFFF#128 <<< 48)) ||| (map.zeroExtend 128 <<< 48))

/-- The 312 parcel bytes of frame `i` of a parcel (08 R325). -/
def frameOf (h : BitVec 128) (payload i : Nat) : BitVec 2496 :=
  BitVec.ofNat 2496 ((h.toNat + 2 ^ 128 * payload) / 2 ^ (2496 * i))

/-- Frame `i` of the parcel in a bay. -/
def Bay.frame (b : Bay) (i : Nat) : BitVec 2496 := frameOf b.hdrOut (b.payload (hdrLen b.hdr)) i

/-- The bay holds every byte of frame `i` (08 R342): that frame of an arriving parcel has been verified; of a bay that is
written here, header line 16 and the payload lines that the frame covers are present. -/
def Bay.frameReady (b : Bay) (i : Nat) : Bool :=
  if b.owner.isSome then i < b.frames
  else
    let len := hdrLen b.hdr
    let lo := (312 * i - 16) / 512
    let hi := payLines (min len (312 * (i + 1) - 16))
    b.present.getLsbD 16 && (List.range 16).all (fun l => l < lo || hi ≤ l || b.present.getLsbD l)

/-- Line `l` of a bay is there for a combine (08 R348). -/
def Bay.lineReady (b : Bay) (l : Nat) : Bool :=
  if b.owner.isSome then min (hdrLen b.hdr) (512 * (l + 1)) + 16 ≤ 312 * b.frames && b.frames ≠ 0
  else b.present.getLsbD l

/-- Every line of the parcel that a bay holds is there (08 R348). -/
def Bay.filled (b : Bay) : Bool :=
  if b.owner.isSome then b.frames ≠ 0 && parcelFrames (hdrLen b.hdr) ≤ b.frames
  else b.present.getLsbD 16 && (List.range (payLines (hdrLen b.hdr))).all (fun l => b.present.getLsbD l)

/-- The parcel of a received bay is complete. -/
def Bay.whole (b : Bay) : Bool := b.frames ≠ 0 && parcelFrames (hdrLen b.hdr) ≤ b.frames

/-- Frame `i` of an arriving parcel written to its bay: header from frame 0, with the poison of its map; payload bytes to
their lines. -/
def Bay.takeFrame (b : Bay) (i : Nat) (d : BitVec 2496) : Bay :=
  let b1 := if i = 0 then
      let h := d.extractLsb' 0 128
      { b with hdr := h, present := setBit17 b.present 16 true, poison := (hdrMap h).zeroExtend 17 }
    else b
  let len := hdrLen b1.hdr
  let o := 312 * i - 16
  let n := min (if i = 0 then 296 else 312) (len - o)
  let chunk := (if i = 0 then d.toNat / 2 ^ 128 else d.toNat) % 2 ^ (8 * n)
  let part := chunk * 2 ^ (8 * (o % 512))
  let add := fun (b : Bay) (l : Nat) (x : Nat) =>
    { b with lines := SMap.upd 0 b.lines l (fun y => y ||| BitVec.ofNat 4096 x), present := setBit17 b.present l true }
  let b2 := if n = 0 then b1 else add b1 (o / 512) part
  let b3 := if 512 < o % 512 + n then add b2 (o / 512 + 1) (part / 2 ^ 4096) else b2
  { b3 with frames := b3.frames + 1 }

/-- The payload bytes of a bay. -/
def Bay.bytes (b : Bay) : List Byte := leBytes (hdrLen b.hdr) (b.payload (hdrLen b.hdr))

/-- Payload bytes put into a bay's lines, as the arcade writes a parcel of its own. -/
def Bay.fill (b : Bay) (h : BitVec 128) (payload : Nat) : Bay :=
  let n := payLines (hdrLen h)
  (List.range n).foldl (fun b l => b.put l (BitVec.ofNat 4096 (payload / 2 ^ (4096 * l))) false)
    { b with hdr := h, present := setBit17 b.present 16 true }

/-- Bay B of a COPY that has fired: no line is there yet. -/
def Bay.forCopy (b : Bay) : Bay := { b with expect := true, copied := true }

/-- A placeholder made at TREAD `t` (08 R363): every line zero and poisoned but the header line. Log 39 (DEDUCED). -/
def Bay.placeholder (b : Bay) (slice : Nat) (chip : BitVec 16) (isS : Bool) (kind f : Nat) (pid : Word) (t : Nat) : Bay :=
  let len := min 8192 (312 * f - 16)
  { b.arrive t with
    lines := [], present := BitVec.allOnes 17, poison := 0xFFFF#17, flags := b.flags ||| 1, frames := f
    hdr := mkHdr slice (if isS then 0 else 1) kind len chip (BitVec.ofNat 16 (2 ^ payLines len - 1)) pid 0 }

end Sys2Proof.Machine
end

