-- ==== Sys2Proof/Machine/Timetable.lean ====
section
/-! DEFINITION. Timetables (08 R332 to R351, R356, R357, R363, R364): the entries of a context in list order, and what
each does at its fire tread; combines of the reduction unit; token-record parcels.
-/
namespace Sys2Proof.Machine

/-! ### The next action of a context (08 R336) -/

/-- An action of a timetable: repetition `r` of an entry, its fire tread, and where the entry stands. -/
structure TtAct where
  t : Word64
  flight : Nat
  seg : Nat
  ent : Nat
  r : Nat
  e : TtEnt
  deriving DecidableEq, Repr

/-- The parcel identifier of an action: the number counts on with the repetition (08 R336). -/
def TtAct.pid (a : TtAct) : Word :=
  a.e.pid.extractLsb' 20 12 ++ BitVec.ofNat 20 (a.e.pid.toNat + a.r)

/-- Action `a` stands before `b` in list order. Log 89 (DEDUCED). -/
def TtAct.before (a b : TtAct) : Bool :=
  let d := (a.t - b.t).toInt
  decide (d < 0 ∨ d = 0 ∧ (a.flight < b.flight ∨ a.flight = b.flight ∧
    (a.seg < b.seg ∨ a.seg = b.seg ∧ a.ent < b.ent)))

/-- The actions that stand next, one for each entry with repetitions to come. Entries without an action (NOP, reserved)
are passed over. -/
def Ctx.nextActs (c : Ctx) : List TtAct :=
  c.streams.flatMap (fun st => st.segs.zipIdx.flatMap (fun (g, i) =>
    (g.ents.zip g.prog).zipIdx.filterMap (fun ((e, r), j) =>
      if r ≤ e.count1 && e.op ≠ 0 && e.op ≤ 8 then
        some { t := g.base + BitVec.ofNat 64 (e.t + r * e.period), flight := st.flight, seg := i, ent := j, r, e }
      else none)))

/-- The first action of a context in list order. -/
def Ctx.head (c : Ctx) : Option TtAct :=
  c.nextActs.foldl (fun b a => match b with
    | none => some a
    | some x => if a.before x then some a else some x) none

/-- An action of a context is done. -/
def Ctx.advance (c : Ctx) (a : TtAct) : Ctx :=
  { c with streams := c.streams.map (fun st => if st.flight = a.flight then
      { st with segs := st.segs.zipIdx.map (fun (g, i) => if i = a.seg then
          { g with prog := g.prog.zipIdx.map (fun (n, j) => if j = a.ent then n + 1 else n) } else g) } else st) }

/-! ### Helpers -/

/-- The slice of a context. -/
def State.ctxSlice (s : State) (c : Nat) : Nat := (s.ctx c).slice.toNat

/-- A port of the arcade of context `c`, by its index there. See 01 R18. -/
def arcPort (c i : Nat) : Nat := c / 64 / 6 * 6 + i

/-- Bay A of an action, as port and bay. -/
def TtAct.bayA (a : TtAct) (c : Nat) : Nat × Nat := (arcPort c a.e.portA, a.e.bayA)

/-- The key of a bay. -/
def bayKey (b : Nat × Nat) : Nat := b.1 * 128 + b.2

/-- The hall that an entry names is not running the flight (08 R364). -/
def State.hallOut (s : State) (k flight vh : Nat) (en : Bool) : Bool :=
  en && ((match s.flight flight with | some f => f.offHalls.contains vh | none => false)
    || !(s.hallsOf k).any (fun ph => (s.hall ph).vh = vh && (s.hall ph).st != .withdrawn))

/-- The far context of slice `k` on a link of the arcade. -/
def State.ctxOn (s : State) (k p h : Nat) : Option Nat := s.sliceCtx k (2 * p + h)

/-- A dead context fires with nothing sent (09 R404). -/
def State.deadSend (s : State) (c : Nat) : State :=
  s.updLink (s.ctxLink c) (fun l => { l with cnt := { l.cnt with drop := satInc l.cnt.drop } })

/-- A bay that no transmission reads any more, or that the last will free. -/
def State.releaseBay (s : State) (b : Nat × Nat) : State :=
  if (s.bay (bayKey b)).users = 0 then s.freeBay b.1 b.2 else s.updBay (bayKey b) (fun x => { x with rel := true })

/-- A parcel or a COPY is still to come into bay `b`: a RECV or REDUCE of the arcade with the identifier of action `a`, or a COPY that
stands no later (08 R344, R347). -/
def State.bayDue (s : State) (c : Nat) (b : Nat × Nat) (a : TtAct) : Bool :=
  let t := s.rawOf (s.ctxSlice c) a.t
  (SMap.keys s.ctxs).any (fun d =>
    let x := s.ctx d
    x.en && (x.awaits.any (fun w => (w.bayP, w.bay) = b && w.pid = a.pid)
      || x.nextActs.any (fun y => if y.e.op = 5 then decide ((y.e.arcB * 6 + y.e.portB, y.e.bayB) = b ∧ s.rawOf (s.ctxSlice d) y.t ≤ t)
          else (y.e.op = 3 || y.e.op = 4) && decide (y.bayA d = b) && y.pid = a.pid)))

/-- The error state of the step for an entry whose hall is not running, and a placeholder in a bay that the hall would
have written: one that no parcel and no COPY fills (08 R364). -/
def State.outBay (s : State) (c : Nat) (a : TtAct) : State :=
  let k := s.ctxSlice c
  if s.hallOut k a.flight a.e.vh a.e.en then
    let b := a.bayA c
    let s1 := s.notRunning k
    let x := s1.bay (bayKey b)
    if x.owner.isSome || x.copied || x.expect || s1.bayDue c b a then s1
    else s1.updBay (bayKey b) (fun x => x.placeholder k s.cfg.chip (b.2 < 96) 0 (if a.e.op = 5 then 27 else a.e.size) a.pid s1.now)
  else s

/-- What stops a SEND or MCAST: the length or the identifier of its bay (08 Table 08.9). -/
def Bay.sendFault (b : Bay) (a : TtAct) : Option (BitVec 16) :=
  if parcelFrames (hdrLen b.hdr) ≠ a.e.size ∨ 8192 < hdrLen b.hdr then some 0x0112
  else if hdrPid b.hdr ≠ a.pid then some 0x0113 else none

/-- Transmissions of bay A started on contexts `cs`; those that are dead send nothing. -/
def State.startJobs (s : State) (cs : List Nat) (b : Nat × Nat) (a : TtAct) (rel : Bool) : State :=
  let dead := cs.filter (fun c => (s.ctx c).dead)
  let live := cs.filter (fun c => !(s.ctx c).dead)
  let job : TxJob := { port := b.1, bay := b.2, frames := a.e.size, next := 0, rel, cls := if b.2 < 96 then 0 else 1
                       pid := a.pid, waiting := none, at_ := s.now }
  let s1 := s.each dead (fun s c => s.deadSend c)
  let s2 := s1.each live (fun s c => s.updCtx c (fun x => { x with jobs := x.jobs ++ [job] }))
  let s3 := s2.updBay (bayKey b) (fun x => { x with users := x.users + live.length })
  if live.isEmpty && rel then s3.releaseBay b else s3

/-! ### Actions: `none` while what the action needs is not there -/

/-- SEND and MCAST on contexts `cs` (08 R342, R346). -/
def State.actSend (s : State) (c : Nat) (a : TtAct) (cs : List Nat) : Option State :=
  let s0 := s.outBay c a
  let b := a.bayA c
  let x := s0.bay (bayKey b)
  if cs.all (fun d => (s.ctx d).dead) then some (s0.startJobs cs b a a.e.rel)
  else if !x.frameReady 0 then none
  else
    match x.sendFault a with
    | some cause => some (s0.ctxFault cause c b.2 a.pid)
    | none => some (s0.startJobs cs b a a.e.rel)

/-- The contexts of an MCAST's mask (08 Table 08.6). -/
def State.maskCtxs (s : State) (c : Nat) (mask : BitVec 12) : List Nat :=
  ((List.range 12).filter (fun i => mask.getLsbD i)).filterMap (fun i =>
    s.ctxOn (s.ctxSlice c) (arcPort c (i / 2)) (i % 2))

/-- The entry that an arriving or arrived parcel was matched to before it fired. -/
def Ctx.early (x : Ctx) (b : Nat × Nat) (pid : Word) : Option Await :=
  x.awaits.find? (fun w => !w.fired && w.pid = pid && w.bayP = b.1 && w.bay = b.2)

/-- An entry of a RECV or REDUCE as an open one. -/
def State.awaitOf (s : State) (c : Nat) (a : TtAct) (fired matched : Bool) : Await :=
  let b := a.bayA c
  let raw := s.rawOf (s.ctxSlice c) a.t
  { pid := a.pid, bayP := b.1, bay := b.2, frames := a.e.size, fired, matched, missAt := raw + 512, openAt := raw - 2048
    reduce := a.e.op = 4, red := a.e.red, bPort := arcPort c a.e.portB, bBay := a.e.bayB, vh := a.e.vh, en := a.e.en }

/-- RECV and REDUCE open their entry (08 R344). One whose parcel has come is done with it. Log 38 (DEDUCED). -/
def State.actRecv (s : State) (c : Nat) (a : TtAct) : State :=
  let k := s.ctxSlice c
  let s0 := if s.hallOut k a.flight a.e.vh a.e.en then s.notRunning k else s
  let b := a.bayA c
  match (s0.ctx c).early b a.pid with
  | some w =>
    let rest := (s0.ctx c).awaits.erase w
    s0.updCtx c (fun x => { x with awaits := if w.done then rest else rest ++ [{ w with fired := true }] })
  | none =>
    (s0.updBay (bayKey b) (fun x => { x with expect := true })).updCtx c (fun x =>
      { x with awaits := x.awaits ++ [s0.awaitOf c a true false] })

/-- A combine put in list order: by fire tread, then by port (08 R348). -/
def putComb (x : Comb) : List Comb → List Comb
  | [] => [x]
  | y :: ys => if x.at_ < y.at_ ∨ x.at_ = y.at_ ∧ x.ctx / 64 < y.ctx / 64 then x :: y :: ys else y :: putComb x ys

/-- REDUCE also asks the reduction unit for its combine. -/
def State.actReduce (s : State) (c : Nat) (a : TtAct) : State :=
  let b := a.bayA c
  let x : Comb := { at_ := s.rawOf (s.ctxSlice c) a.t, aPort := b.1, aBay := b.2, bPort := arcPort c a.e.portB
                    bBay := a.e.bayB, red := a.e.red, line := 0, ctx := c, pid := a.pid }
  (s.actRecv c a).updArc (c / 64 / 6) (fun y => { y with combs := putComb x y.combs })

/-- COPY (08 R347): once bay A is filled and bay B free, its lines wait for places in the relay die's stairwell frames. -/
def State.actCopy (s : State) (c : Nat) (a : TtAct) : Option State :=
  let s0 := s.outBay c a
  let b := a.bayA c
  let x := s0.bay (bayKey b)
  let n := a.e.size
  let here : Bool :=
    if x.owner.isSome then x.whole
    else
      let m := if n = 17 then payLines (hdrLen x.hdr) else n
      (n < 17 || x.present.getLsbD 16) && (List.range (min m 16)).all (fun l => x.present.getLsbD l)
  let p := a.e.arcB * 6 + a.e.portB
  if !here || s0.bay (p * 128 + a.e.bayB) ≠ {} then none
  else
    let ls : List StwLine := (List.range n).map (fun l =>
      { src := 4 + c / 64 / 6, dst := a.e.relay, sched := true, fails := 0, due := 0, line := 0, poison := false
        dest := .copy p a.e.bayB l b.1 b.2 (l + 1 = n) a.e.rel, at_ := s.rawOf (s.ctxSlice c) a.t })
    let s1 := s0.updBay (bayKey b) (fun x => { x with users := x.users + 1 })
    some ((s1.updBay (p * 128 + a.e.bayB) Bay.forCopy).each ls (fun s l => s.sendLine l))

/-- TSEND (08 R356): it waits for its records and for a free bay. -/
def State.actTsend (s : State) (c : Nat) (a : TtAct) : Option State :=
  let p := c / 64
  let b := a.bayA c
  let box := (s.port p).outbox
  if (s.ctx c).dead then some (s.deadSend c)
  else if box.length < a.e.size || s.bay (bayKey b) ≠ {} then none
  else
    let recs := box.take a.e.size
    let h := mkHdr (s.ctxSlice c) 1 0 (8 * a.e.size) s.cfg.chip 0 a.pid a.e.size
    let s1 := s.updPort p (fun x => { x with outbox := x.outbox.drop a.e.size })
    let s2 := s1.updBay (bayKey b) (fun x => x.fill h (leNat (recs.flatMap (fun r => bvBytes 8 r))))
    some (s2.startJobs [c] b { a with e := { a.e with size := 1 } } true)

/-- CONT (08 R334): the next segment is asked for, its base this fire tread. -/
def State.actCont (s : State) (c : Nat) (a : TtAct) : State :=
  s.updCtx c (fun x => { x with streams := x.streams.map (fun st =>
    if st.flight = a.flight then { st with fetch := some (a.e.off, a.t) } else st) })

/-! ### Firing (02 R44, R45; 08 R336, R338) -/

/-- The lag of a context after an action. -/
def Ctx.lagged (x : Ctx) (n : Nat) : Ctx := { x with lagCur := satAdd 0 n, lagMax := bvMax x.lagMax (satAdd 0 n) }

/-- The first action of a context, if it is one of operation `op`, fires at its fire tread or when what it needs is
there. -/
def State.fire (s : State) (c op : Nat) (act : State → TtAct → Option State) : State :=
  if !(s.ctx c).en then s
  else
    match (s.ctx c).head with
    | none => s
    | some a =>
      let k := s.ctxSlice c
      if a.e.op ≠ op || !s.mayAct k a.t then s
      else
        let t := s.rawOf k a.t
        let s1 := s.waitUntil t
        if s1.now < t then s1
        else
          match act s1 a with
          | none => s1
          | some s2 => s2.updCtx c (fun x => (x.lagged (s1.now - t)).advance a)

/-- A command of context `n` of port `p`. -/
def fireAt (p : Fin 30) (n : Fin 64) (op : Nat) (act : State → TtAct → Option State) (s : State) : Out :=
  if s.hasPort p.val then .next (s.fire (64 * p.val + n.val) op act) else .fault .absentUnit

/-- SEND (R342). -/
def execSend (p : Fin 30) (n : Fin 64) (s : State) : Out :=
  fireAt p n 1 (fun s a => s.actSend (64 * p.val + n.val) a [64 * p.val + n.val]) s

/-- MCAST (R346). -/
def execMcast (p : Fin 30) (n : Fin 64) (s : State) : Out :=
  fireAt p n 2 (fun s a => s.actSend (64 * p.val + n.val) a (s.maskCtxs (64 * p.val + n.val) a.e.mask)) s

/-- RECV (R344). -/
def execRecv (p : Fin 30) (n : Fin 64) (s : State) : Out :=
  fireAt p n 3 (fun s a => some (s.actRecv (64 * p.val + n.val) a)) s

/-- REDUCE (R348). -/
def execReduce (p : Fin 30) (n : Fin 64) (s : State) : Out :=
  fireAt p n 4 (fun s a => some (s.actReduce (64 * p.val + n.val) a)) s

/-- COPY (R347). -/
def execCopy (p : Fin 30) (n : Fin 64) (s : State) : Out :=
  fireAt p n 5 (fun s a => s.actCopy (64 * p.val + n.val) a) s

/-- FREE (R337). -/
def execFree (p : Fin 30) (n : Fin 64) (s : State) : Out :=
  fireAt p n 6 (fun s a => some (s.releaseBay (a.bayA (64 * p.val + n.val)))) s

/-- TSEND (R356). -/
def execTsend (p : Fin 30) (n : Fin 64) (s : State) : Out :=
  fireAt p n 7 (fun s a => s.actTsend (64 * p.val + n.val) a) s

/-- CONT (R334). -/
def execCont (p : Fin 30) (n : Fin 64) (s : State) : Out :=
  fireAt p n 8 (fun s a => some (s.actCont (64 * p.val + n.val) a)) s

/-! ### Segments (08 R334) -/

/-- The 64 entries of a segment in HBM. -/
def State.readSegment (s : State) (off : Nat) : List (BitVec 256) :=
  (List.range 64).map (fun i => BitVec.ofNat 256 (leNat (s.readBytes (off + 32 * i) 32)))

/-- TIMETABLE_SEGMENT_ARRIVAL (R334): the segment of a CONT takes the buffer whose segment is done, when its last line finds an
unreserved frame and its places; before a launch, the first segment of a resident flight is present. -/
def execTimetableSegmentArrival (p : Fin 30) (n : Fin 64) (flight : BitVec 12) (s : State) : Out :=
  let c := 64 * p.val + n.val
  let f := flight.toNat
  if !s.hasPort p.val then .fault .absentUnit
  else
    match (s.ctx c).streams.find? (fun st => st.flight = f && st.fetch.isSome) with
    | some st =>
      match st.fetch with
      | none => .next s
      | some (off, base) =>
        match s.unschedRead (off + 2047) (4 + p.val / 6) with
        | none => .next s
        | some s1 =>
          let g := Seg.start base (s1.readSegment off)
          .next (s1.updCtx c (fun x => { x with streams := x.streams.map (fun y =>
            if y.flight = f then { y with fetch := none, segs := y.segs.drop (y.segs.length - 1) ++ [g] } else y) }))
    | none =>
      .next (s.updFlight f (fun x =>
        { x with ttsIn := (x.ttsIn ++ (x.tts.map (fun t => t.1)).filter (fun l =>
            s.sliceCtx x.slice.toNat l = some c && !x.ttsIn.contains l)) }))

/-! ### Missing parcels (08 R363, 09 R403) -/

/-- Treads of fast retrains of a link between two TREADs. -/
def pausedIn (ps : List (Nat × Nat)) (lo hi : Nat) : Nat :=
  ps.foldl (fun a (b, e) => a + (min e hi - max b lo)) 0

/-- The missing-parcel tread of an open entry, moved by the pauses of its link. -/
def State.missTread (s : State) (c : Nat) (w : Await) : Nat :=
  let l := s.link (s.ctxLink c)
  let now := match l.pauseAt with | some t => [(t, s.now)] | none => []
  w.missAt + pausedIn (l.pauses ++ now) w.openAt s.now

/-- The kind of a placeholder's header: what red names for a REDUCE (08 R363). -/
def Await.kind (w : Await) : Nat := if w.reduce then w.red + 1 else 0

/-- An open entry reaches its missing-parcel tread. -/
def State.makeMissing (s : State) (c : Nat) (w : Await) : State :=
  let k := s.ctxSlice c
  let f := w.pid.toNat / 2 ^ 20
  let out := s.hallOut k f w.vh w.en
  let s1 := s.updBay (w.bayP * 128 + w.bay) (fun b =>
    { (b.placeholder k s.cfg.chip (w.bay < 96) w.kind w.frames w.pid s.now) with owner := some c })
  let s2 := s1.updCtx c (fun x => { x with
    awaits := x.awaits.erase w, missed := x.missed ++ [w.pid], miss := satInc x.miss })
  let s3 := s2.updLink (s2.ctxLink c) (fun l => { l with sq := { l.sq with asm_ := l.sq.asm_.map (fun a =>
    if a.bayP = w.bayP && a.bay = w.bay then { a with drop := true } else a) } })
  if out then s3.notRunning k else s3.ctxFault 0x010A c w.bay w.pid

/-- MISSING_PARCEL (R363): the first open entry whose parcel is not complete. -/
def execMissingParcel (p : Fin 30) (n : Fin 64) (s : State) : Out :=
  let c := 64 * p.val + n.val
  if !s.hasPort p.val then .fault .absentUnit
  else
    match (s.ctx c).awaits.find? (fun w => w.fired) with
    | none => .next s
    | some w =>
      let s1 := s.waitUntil (s.missTread c w)
      if s1.now < s1.missTread c w then .next s1 else .next (s1.makeMissing c w)

/-! ### Combines (08 R348 to R351) -/

/-- Elements of `w` bits of two lines combined one by one. -/
def mapElems (w : Nat) (f : Nat → Nat → Nat) : Nat → Nat → Nat → Nat
  | 0, _, _ => 0
  | n + 1, b, a => f (b % 2 ^ w) (a % 2 ^ w) + 2 ^ w * mapElems w f n (b / 2 ^ w) (a / 2 ^ w)

/-- b + a in FP32, RNE (08 R349). -/
def addFp32 (b a : Nat) : Nat := (Fmt.fp32.addVals .rne false (Fmt.fp32.value b) (Fmt.fp32.value a)).1

/-- b + a in BF16, rounded once in RNE (08 R349). -/
def addBf16 (b a : Nat) : Nat := (Fmt.bf16.addVals .rne false (Fmt.bf16.value b) (Fmt.bf16.value a)).1

/-- Two accumulator images combined: K added modulo 2^187, flags ORed (04 R161). See 08 R350. -/
def addImage (b a : Nat) : Nat :=
  let k := (b % 2 ^ 187 + a % 2 ^ 187) % 2 ^ 187
  let fl := (BitVec.ofNat 5 (b / 2 ^ 187) ||| BitVec.ofNat 5 (a / 2 ^ 187)).toNat
  k + fl * 2 ^ 187

/-- The payload of bay B after line `l` has combined. Elements of 24 bytes that end in the line combine with it. Log 40 (DEDUCED). -/
def combineLine (red l len b a : Nat) : Nat :=
  let lo := if red = 2 then 512 * l / 24 * 24 else 512 * l
  let hi := if red = 2 then min len (512 * (l + 1)) / 24 * 24 else min len (512 * (l + 1))
  let n := hi - lo
  let part := fun (x : Nat) => x / 2 ^ (8 * lo) % 2 ^ (8 * n)
  let sum := if red = 0 then mapElems 32 addFp32 (n / 4) (part b) (part a)
    else if red = 1 then mapElems 16 addBf16 (n / 2) (part b) (part a)
    else mapElems 192 addImage (n / 24) (part b) (part a)
  let keep := if red = 0 then n / 4 * 4 else if red = 1 then n / 2 * 2 else n
  b - part b % 2 ^ (8 * keep) * 2 ^ (8 * lo) + sum * 2 ^ (8 * lo)

/-- A payload number written to a bay's lines, their presence and poison as they are. -/
def Bay.setPayload (b : Bay) (len v : Nat) : Bay :=
  { b with lines := (List.range (payLines len)).foldl (fun m l =>
      SMap.set 0 m l (BitVec.ofNat 4096 (v / 2 ^ (4096 * l)))) b.lines }

/-- The reduce-mismatch check (08 Table 08.9). -/
def reduceBad (a b : Bay) (red : Nat) : Bool :=
  hdrKind a.hdr ≠ hdrKind b.hdr || hdrLen a.hdr ≠ hdrLen b.hdr || hdrKind a.hdr ≠ red + 1
    || (red = 2 && hdrLen a.hdr % 24 ≠ 0)

/-- Every line of bay B poisoned. -/
def Bay.poisonAll (b : Bay) : Bay := { b with poison := BitVec.allOnes 17 }

/-- A combine ends: it leaves the list and bay A is freed (08 R337). -/
def State.endComb (s : State) (a : Nat) (x : Comb) : State :=
  (s.updArc a (fun y => { y with combs := y.combs.erase x })).releaseBay (x.aPort, x.aBay)

/-- One line combined, or the end of a combine that does not add. -/
def State.combine (s : State) (ar : Nat) (x : Comb) : State :=
  let ka := x.aPort * 128 + x.aBay
  let kb := x.bPort * 128 + x.bBay
  let a := s.bay ka
  let b := s.bay kb
  if a.flags.getLsbD 0 then (s.updBay kb Bay.poisonAll).endComb ar x
  else if x.line = 0 && reduceBad a b x.red then
    ((s.updBay kb (fun b => { b.poisonAll with flags := b.flags ||| 2 })).ctxFault 0x0115 x.ctx x.bBay x.pid).endComb ar x
  else
    let len := hdrLen a.hdr
    let v := combineLine x.red x.line len (b.payload len) (a.payload len)
    let s1 := s.updBay kb (fun y => { (y.setPayload len v) with
      poison := setBit17 y.poison x.line (y.poison.getLsbD x.line || a.poison.getLsbD x.line) })
    let s2 := s1.updArc ar (fun y => { y with redLines := satInc y.redLines })
    if payLines len ≤ x.line + 1 then s2.endComb ar x
    else s2.updArc ar (fun y => { y with combs := y.combs.map (fun z => if z = x then { z with line := z.line + 1 } else z) })

/-- A REDUCE into the bay B of combine `x` that stands earlier in the list order of a context of the arcade has not fired (08 R348). -/
def State.combDue (s : State) (ar : Nat) (x : Comb) : Bool :=
  ((List.range 6).flatMap (fun i => s.ctxsOf (6 * ar + i))).any (fun c => (s.ctx c).nextActs.any (fun a =>
    let t := s.rawOf (s.ctxSlice c) a.t
    a.e.op = 4 && decide (arcPort c a.e.portB = x.bPort ∧ a.e.bayB = x.bBay ∧ (t < x.at_ ∨ t = x.at_ ∧ c / 64 < x.ctx / 64))))

/-- The next line of a combine is there in both bays, or bay A is a placeholder and bay B filled, and no earlier combine into bay B
waits or is still to come (08 R348, R363). -/
def State.combReady (s : State) (ar k : Nat) (x : Comb) : Bool :=
  let a := s.bay (x.aPort * 128 + x.aBay)
  let b := s.bay (x.bPort * 128 + x.bBay)
  let first := !((s.arc ar).combs.take k).any (fun y => y.bPort = x.bPort && y.bBay = x.bBay) && !s.combDue ar x
  let arrived := a.frames ≠ 0 && hdrPid a.hdr = x.pid
  first && arrived && (if a.flags.getLsbD 0 then b.filled
    else a.lineReady x.line && (b.lineReady x.line || hdrLen a.hdr = 0) && (b.owner.isSome || b.present.getLsbD 16))

/-- REDUCE_COMBINE (R348): the next line of combine `k` of arcade `a`. -/
def execReduceCombine (a : Fin 5) (k : Nat) (s : State) : Out :=
  if arcadesOf s.cfg.grade ≤ a.val then .fault .absentUnit
  else
    match (s.arc a.val).combs[k]? with
    | none => .next s
    | some x => if s.combReady a.val k x then .next (s.combine a.val x) else .next s

/-! ### Token records (08 R357) -/

/-- A record of Table 08.10 as a token of slice `k`, none where its type or its reserved bits are not those of a
record. -/
def recordToken (k : Byte) (r : BitVec 64) : Option Token :=
  if r.extractLsb' 16 2 ≠ 0 ∨ r.getLsbD 19 then none
  else some { branch := r.getLsbD 18, flight := (r.extractLsb' 20 12).toNat, ord := r.extractLsb' 32 32
              value := r.extractLsb' 0 16, slice := k }

/-- A SEND or MCAST that has not fired yet reads the bay: the parcel is forwarded, not delivered. -/
def State.forwards (s : State) (p bay : Nat) (pid : Word) : Bool :=
  (s.ctxsOf p ++ (List.range 6).flatMap (fun i => s.ctxsOf (p / 6 * 6 + i))).any (fun c =>
    (s.ctx c).nextActs.any (fun a => (a.e.op = 1 || a.e.op = 2) && decide (a.bayA c = (p, bay)) && a.pid = pid))

/-- TOKEN_RECORD_DELIVERY (R357): every record of a complete parcel goes to the stair controllers, and the bay is
freed. -/
def execTokenRecordDelivery (p : Fin 30) (bay : Fin 128) (s : State) : Out :=
  let key := p.val * 128 + bay.val
  let b := s.bay key
  if !s.hasPort p.val then .fault .absentUnit
  else
    match b.owner with
    | none => .next s
    | some c =>
      if bay.val < 96 || 104 ≤ bay.val || !b.whole || b.expect || hdrClass b.hdr ≠ 1 || hdrKind b.hdr ≠ 0
          || s.forwards p.val bay.val (hdrPid b.hdr) then .next s
      else
        let n := min (hdrCount b.hdr) 16
        let v := b.payload (hdrLen b.hdr)
        let recs : List (BitVec 64) := (List.range n).map (fun i => BitVec.ofNat 64 (v / 2 ^ (64 * i)))
        let s1 := s.each recs (fun s r =>
          match recordToken (s.ctx c).slice r with
          | some t => s.deliverToken t
          | none => s.ctxFault 0x011E c bay.val (hdrPid b.hdr))
        .next (s1.releaseBay (p.val, bay.val))

end Sys2Proof.Machine
end

