-- ==== Sys2Proof/Machine/Fabric.lean ====
section
/-! DEFINITION. What the arcades do without a timetable: dead links (09 R404 to R406), control parcels along the slice tree
(08 R358; 07 R317, R318, R615), share announcements (08 R353), the storage engine (08 R360, R361), and discovery beacons
(07 R303 to R308).
-/
namespace Sys2Proof.Machine

/-! ### Dead links (09 R404 to R406) -/

/-- The enabled contexts of a link. -/
def State.linkCtxs (s : State) (l : Nat) : List Nat :=
  (s.ctxsOf (l / 2)).filter (fun c => (s.ctx c).half = decide (l % 2 = 1))

/-- The detail of a fault about a link: port and half. -/
def linkDetail (l : Nat) : Word64 := BitVec.ofNat 64 (l / 2 + 32 * (l % 2))

/-- A fault about a link: class bit 4 of every slice with a context on it (12 Table 12.2). -/
def State.linkRec (s : State) (cause : BitVec 16) (l : Nat) (d : Word64) : FRec :=
  let ks := ((s.linkCtxs l).map (fun c => s.ctxSlice c)).eraseDups
  { cause, src := srcArc (l / 12), errs := ks, cls := 4, detail := d, slice := match ks with | [k] => some k | _ => none }

/-- A queued class D parcel asks for, or carries, data of a storage transfer (08 Table 08.12). -/
def TxParcel.isOf (x : TxParcel) (j : StorJob) : Bool :=
  hdrKind x.hdr = (if j.op = 3 then 1 else 0) && (x.bytes.drop 8).take 4 = bvBytes 4 j.hdr.tag

/-- A storage transfer of port `p` has sent a frame of a parcel that is not yet answered. -/
def State.storOut (s : State) (p : Nat) (j : StorJob) : Bool :=
  j.d.chan.toNat = p && !j.gated
    && decide (((s.link (2 * p)).sq.dq.filter (fun x => x.isOf j && x.next = 0)).length < j.left)

/-- Transfers of a storage port with frames in flight end with status link dead (09 R406). -/
def State.failStorage (s : State) (p : Nat) : State :=
  let dead := s.foyer.stor.filter (s.storOut p)
  let s1 := { s with foyer := { s.foyer with stor := s.foyer.stor.filter (fun j => !s.storOut p j) } }
  let s2 := s1.updLink (2 * p) (fun x => { x with sq := { x.sq with dq := x.sq.dq.filter (fun y => !dead.any (fun j => y.isOf j)) } })
  s2.each dead (fun s j => (s.showRange j.hid).finishXfer j.hdr j.op j.d 0x000E (BitVec.ofNat 64 p) none)

/-- A context marked dead: its transmissions end, and bays that they would have freed are freed. -/
def State.killCtx (s : State) (c : Nat) : State :=
  let js := (s.ctx c).jobs
  let s1 := s.updCtx c (fun x => { x with dead := true, jobs := [], sCred := 0, cCred := 0 })
  s1.each js (fun s j => s.leaveBay j.port j.bay j.rel)

/-- The link is dead for the contexts it carries, once; parcels that were on their way to them are dropped (09 R404, R405). Log 44 (DEDUCED). -/
def State.linkDead (s : State) (l : Nat) : State :=
  let live := (s.linkCtxs l).filter (fun c => !(s.ctx c).dead)
  let r := s.linkRec 0x0209 l (linkDetail l)
  let s1 := if live.isEmpty then s else s.raiseNotice r 0x05 (linkDetail l) r.errs
  let s2 := s1.updLink l (fun x => { x with sq := { x.sq with
    rbuf := [], replayQ := [], replaying := false
    asm_ := x.sq.asm_.map (fun a => if a.chan < 64 then { a with drop := true } else a) } })
  let s3 := s2.each live (fun s c => s.killCtx c)
  if s3.storageLink (l / 2) (l % 2) then s3.failStorage (l / 2) else s3

/-! ### Control parcels (08 R358, R359) -/

/-- The payload of an epoch parcel (08 Table 08.11). -/
def epochBytes (epoch sent : Word64) : List Byte := bvBytes 8 epoch ++ bvBytes 8 sent

/-- A parcel of an unscheduled class put to a link's queue: class 1 control, 2 D, 3 M. -/
def State.sendUnsch (s : State) (l cls kind slice : Nat) (chip : BitVec 16) (pid : Word) (bs : List Byte) : State :=
  let h := mkHdr slice cls kind bs.length chip 0 pid 0
  let x : TxParcel := { chan := BitVec.ofNat 7 (63 + cls), hdr := h, bytes := bs, next := 0 }
  s.updLink l (fun y => { y with sq :=
    if cls = 1 then { y.sq with ctlq := y.sq.ctlq ++ [x] }
    else if cls = 2 then { y.sq with dq := y.sq.dq ++ [x] } else { y.sq with mq := y.sq.mq ++ [x] } })

/-- A control parcel sent on the links of the slice tree: reports toward the master, the rest to every child. -/
def State.relayTo (s : State) (k : Nat) (up : Bool) (kind : Nat) (chip : BitVec 16) (pid : Word) (bs : List Byte) :
    State :=
  let i := (s.sl k).id
  let ls := if up then (s.parentLink i).toList else s.childLinks i
  s.each ls (fun s l => s.sendUnsch (2 * l.1 + l.2) 1 kind k chip pid bs)

/-- The chip number of a slice's master. -/
def State.masterOf (s : State) (k : Nat) : BitVec 16 := BitVec.ofNat 16 (masterChip (s.sl k).id)

/-- CONTROL_PARCEL_RELAY (R358): parcel `k` goes on along the slice tree, unchanged; an epoch parcel carries this part's
own epoch, chip number and send TREAD, which is written as its first frame leaves. -/
def execControlParcelRelay (k : Nat) (s : State) : Out :=
  match s.relays[k]? with
  | none => .next s
  | some c =>
    let s1 := { s with relays := s.relays.eraseIdx k }
    .next (match c with
      | .epoch n e t => s1.relayTo n false 1 s.cfg.chip 0 (epochBytes e t)
      | .hold n r => s1.relayTo n true 2 r.chip r.ordinal (holdBytes r)
      | .release n r => s1.relayTo n false 3 (s1.masterOf n) r.ordinal (releaseBytes r)
      | .report n r => s1.relayTo n true 4 r.chip r.ordinal (reportBytes r)
      | .outcome n o => s1.relayTo n false 5 (s1.masterOf n) o.ordinal (outcomeBytes o))

/-! ### Epoch parcels (07 R317, R318, R615) -/

/-- The delay of a link as ARC_NBR_STAT reports it (07 Table 07.16). Log 41 (DEDUCED). -/
def Link.delay (l : Link) : Nat := match l.side.delayL with | some d => if 65534 < d then 0xFFFF else d | none => 0xFFFF

/-- The epoch of slice `k` set from its parent's (07 R318): `tc` is the TREAD at which the parcel came on link `l`. One
that is applied after slice tread 0 refuses the admission. -/
def State.applyEpoch (s : State) (k l : Nat) (epoch sent : Word64) (tc : Nat) : State :=
  let diff := BitVec.ofNat 64 tc - sent - BitVec.ofNat 64 (s.link l).delay
  let e := epoch + diff
  if 0 < (s.clk.tread - e).toInt then
    s.updSl k (fun x => { x with admitted := false, refused := true, kept := none })
  else
    (s.updSl k (fun x => { x with epoch := e, offset := 0, epochDiff := diff, epochSet := true, kept := none })).relay
      (.epoch k e 0)

/-- An epoch parcel dropped and counted (07 R615). -/
def State.dropOn (s : State) (l : Nat) : State :=
  s.updLink l (fun x => { x with cnt := { x.cnt with drop := satInc x.cnt.drop } })

/-- EPOCH_PARCEL_RECEIPT (R615). -/
def execEpochParcelReceipt (p : Fin 30) (h : Fin 2) (slice : BitVec 8) (chip : BitVec 16) (epoch sent : Word64)
    (s : State) : Out :=
  let k := slice.toNat
  let l := 2 * p.val + h.val
  if !s.hasLink p.val h.val then .fault .absentUnit
  else
    let s1 := s.takeIn (isCtl k 1 (epochBytes epoch sent))
    let x := s1.sl k
    .next (if x.admitted && !x.epochSet && s1.parentLink x.id = some (p.val, h.val) then
        s1.applyEpoch k l epoch sent s1.now
      else if !x.admitted && !x.refused then
        s1.updSl k (fun y => { y with kept := some { link := l, chip, epoch, sent, at_ := s1.now } })
      else s1.dropOn l)

/-! ### Share announcements (08 R353) -/

/-- The payload of a share announcement: slice number, S bays, C bays (log entry 20, DESIGN CHOICE). -/
def shareBytes (slice : BitVec 8) (sb cb : BitVec 8) : List Byte := [slice, sb, cb]

/-- The credit counts of a context from the announcement kept for its slice. -/
def State.takeShare (s : State) (c : Nat) : State :=
  match SMap.get (0, 0) (s.link (s.ctxLink c)).anns (s.ctxSlice c) with
  | (a, b) => s.updCtx c (fun x => { x with sCred := a, cCred := b })

/-- SHARE_ANNOUNCEMENT_RECEIPT (R353). -/
def execShareAnnouncementReceipt (p : Fin 30) (h : Fin 2) (slice : BitVec 8) (sBays cBays : BitVec 8) (s : State) : Out :=
  let k := slice.toNat
  let l := 2 * p.val + h.val
  if !s.hasLink p.val h.val then .fault .absentUnit
  else
    let s1 := s.takeIn (fun x => x.link = l && hdrClass x.hdr = 3 && hdrKind x.hdr = 2 && x.bytes = shareBytes slice sBays cBays)
    let s2 := s1.updLink l (fun x => { x with anns := SMap.set (0, 0) x.anns k (sBays.toNat, cBays.toNat) })
    match s2.sliceCtx k l with
    | none => .next s2
    | some c => .next (s2.takeShare c)

/-! ### The storage engine (08 R360, R361) -/

/-- The payload of a class D parcel (08 Table 08.12). Log 21 (DESIGN CHOICE). -/
def storageBytes (d : StorageParcel) : List Byte :=
  bvBytes 8 d.addr ++ bvBytes 4 d.tag ++ bvBytes 2 d.len ++ [d.status, 0] ++ d.data

/-- The class D parcel of a kind with these contents. -/
def isStorage (p kind : Nat) (d : StorageParcel) (x : InParcel) : Bool :=
  x.link = 2 * p && hdrClass x.hdr = 2 && hdrKind x.hdr = kind && x.bytes = storageBytes d

/-- The sequence number that an arrived class D parcel carries. -/
def State.storageSeq (s : State) (p kind : Nat) (d : StorageParcel) : Word :=
  match s.inbox.find? (isStorage p kind d) with
  | some x => hdrPid x.hdr
  | none => 0

/-- The port carries class D, and the parcel names this part (08 R360). See 07 R292. -/
def State.mine (s : State) (p : Nat) (d : StorageParcel) : Bool :=
  s.storageLink p 0 && d.addr.extractLsb' 48 16 = s.cfg.chip

/-- The part-local offset of a global address. -/
def localOff (a : Word64) : Nat := a.toNat % 2 ^ 48

/-- The status byte of a range that may not be touched (08 Table 08.12). -/
def storageStatus (c : BitVec 16) : Byte := if c = 0x0002 then 1 else if c = 0x0003 then 2 else 4

/-- An answer of the storage engine: to the asking chip, at the same offset, with the same tag (log entry 21). -/
def State.answer (s : State) (p kind : Nat) (chip : BitVec 16) (seq : Word) (d : StorageParcel) (len : Nat) (st : Byte)
    (map : BitVec 16) (data : List Byte) : State :=
  let a : StorageParcel := { addr := chip ++ d.addr.extractLsb' 0 48, tag := d.tag, len := BitVec.ofNat 16 len, status := st, data }
  let bs := storageBytes a
  let x : TxParcel := { chan := 65, hdr := mkHdr 0xFF 2 kind bs.length s.cfg.chip map seq 0, bytes := bs, next := 0 }
  s.updLink (2 * p) (fun y => { y with sq := { y.sq with dq := y.sq.dq ++ [x] } })

/-- The poison map of a parcel with `n` data bytes from place `b` of a transfer: payload lines that hold bytes of poisoned
pieces; the data begin at payload byte 16. -/
def pieceMap (ps : List (Nat × Nat)) (b n : Nat) : BitVec 16 :=
  ps.foldl (fun m x =>
    (List.range (payLines (16 + n))).foldl (fun m i =>
      if b + 512 * i < x.1 + x.2 + 16 ∧ x.1 + 16 < b + 512 * (i + 1) ∧ x.1 < b + n ∧ b < x.1 + x.2 then
        m ||| BitVec.ofNat 16 (2 ^ i) else m) m) 0

/-- Data bytes of a parcel whose payload line its poison map marks: `at_` is their place in the data. -/
def mapHits (map : BitVec 16) (at_ n : Nat) : Bool :=
  (List.range 16).any (fun i => map.getLsbD i && decide (512 * i < at_ + n + 16) && decide (at_ + 16 < 512 * (i + 1)))

/-- The poison map that an arrived class D parcel carries. Log 48 (DEDUCED). -/
def State.storageMap (s : State) (p kind : Nat) (d : StorageParcel) : BitVec 16 :=
  match s.inbox.find? (isStorage p kind d) with
  | some x => hdrMap x.hdr
  | none => 0

/-- STORAGE_WRITE (R361): the data are written, when their last line finds its frame and places, and acknowledged; a range that may not be written is refused in the
acknowledgement's status. -/
def execStorageWrite (p : Fin 30) (chip : BitVec 16) (d : StorageParcel) (s : State) : Out :=
  if !s.hasPort p.val then .fault .absentUnit
  else
    let seq := s.storageSeq p.val 0 d
    let map := s.storageMap p.val 0 d
    let s1 := s.takeIn (isStorage p.val 0 d)
    if !s1.mine p.val d then .next (s1.dropOn (2 * p.val))
    else
      let off := localOff d.addr
      let bs := d.data.take d.len.toNat
      match s1.rangeBad off bs.length true with
      | some (c, _) => .next (s1.answer p.val 3 chip seq d bs.length (storageStatus c) 0 [])
      | none =>
        match s1.unschedXfer off bs.length true with
        | none => .next s
        | some s2 => .next ((s2.partWrite off bs (mapHits map)).answer p.val 3 chip seq d bs.length 0 0 [])

/-- STORAGE_READ_REQUEST (R361): the data are read and answered. -/
def execStorageReadRequest (p : Fin 30) (chip : BitVec 16) (d : StorageParcel) (ups : List Upset) (s : State) : Out :=
  if !s.hasPort p.val then .fault .absentUnit
  else
    let seq := s.storageSeq p.val 1 d
    let s1 := (s.takeIn (isStorage p.val 1 d)).arise ups
    if !s1.mine p.val d then .next (s1.dropOn (2 * p.val))
    else
      let off := localOff d.addr
      let n := min d.len.toNat 8176
      match s1.rangeBad off n false with
      | some (c, _) => .next (s1.answer p.val 2 chip seq d 0 (storageStatus c) 0 [])
      | none =>
        match s1.unschedXfer off n false with
        | none => .next s
        | some s2 =>
          let r := s2.partRead off n
          .next (r.s.answer p.val 2 chip seq d n (if r.bad.isSome then 3 else 0) (pieceMap r.poison 0 n) r.bytes)

/-! ### Discovery (07 R303 to R308) -/

/-- The beacon interval in treads (07 R303, Table 07.13). -/
def State.bcnTreads (s : State) : Nat := s.bcnInt.toNat * 65536

/-- The payload of a beacon (07 Table 07.10). -/
def beaconBytes (b : Beacon) : List Byte :=
  bvBytes 2 b.chip ++ [b.arcade, b.index, b.half, b.version, b.grade, b.linkmap, b.role, b.res] ++ bvBytes 2 b.seq
    ++ bvBytes 4 b.install

/-- The grade code of a beacon. -/
def gradeCode : Grade → Byte
  | .m => 0
  | .b => 1
  | .n => 2

/-- The next beacon of a link. -/
def State.ownBeacon (s : State) (l : Nat) : Beacon :=
  let p := l / 2
  { chip := s.cfg.chip, arcade := BitVec.ofNat 8 (p / 6), index := BitVec.ofNat 8 (p % 6)
    half := if s.form p = .bif then BitVec.ofNat 8 (1 + l % 2) else 0, version := 2, grade := gradeCode s.cfg.grade
    linkmap := s.linkmap.zeroExtend 8, role := BitVec.ofNat 8 (s.role p (l % 2)), res := 0, seq := (s.link l).bcnSeq
    install := s.cfg.install }

/-- A beacon waits to leave on a link. -/
def Link.bcnWaits (l : Link) : Bool := l.sq.mq.any (fun x => hdrKind x.hdr = 0)

/-- BEACON_SEND (R303): at once after training, then every beacon interval. -/
def execBeaconSend (p : Fin 30) (h : Fin 2) (s : State) : Out :=
  let l := 2 * s.lowPort p.val + h.val
  if !s.hasLink p.val h.val then .fault .absentUnit
  else
    let x := s.link l
    if x.phase ≠ .up || x.bcnWaits then .next s
    else
      let s1 := if x.bcnSent then s.waitUntil (x.bcnAt + s.bcnTreads) else s
      if x.bcnSent && s1.now < x.bcnAt + s.bcnTreads then .next s1
      else
        let s2 := s1.sendUnsch l 3 0 0xFF s1.cfg.chip 0 (beaconBytes (s1.ownBeacon l))
        .next (s2.updLink l (fun y => { y with bcnSeq := y.bcnSeq + 1, bcnAt := s2.now }))

/-- A field of a beacon holds a reserved value (07 Tables 07.2, 07.3, 07.7, 07.10). -/
def beaconReserved (b : Beacon) : Bool :=
  (0x2000 ≤ b.chip.toNat && b.chip.toNat ≤ 0xFEFF) || 4 < b.arcade.toNat || 5 < b.index.toNat || 2 < b.half.toNat
    || (b.version ≠ 1 && b.version ≠ 2) || (2 < b.grade.toNat && b.grade ≠ 0xFF)
    || (if b.linkmap = 0xFF then b.grade ≠ 0xFF else 2 < b.linkmap.toNat || (b.linkmap = 0 && b.grade = 0))
    || !roleOk b.role.toNat || b.res ≠ 0

/-- The beacon is compatible with the receiving link (07 R305). See 07 R300. -/
def State.compatible (s : State) (l : Nat) (b : Beacon) : Bool :=
  b.version = 2 && b.install = s.cfg.install && (b.linkmap = s.linkmap.zeroExtend 8 || b.grade = 0xFF)
    && rolePairs (s.role (l / 2) (l % 2)) b.role.toNat

/-- ARC_NBR_STAT.map of an identity (07 R306). -/
def State.mapOf (s : State) (l : Nat) (chip arcade index half : Nat) : BitVec 2 :=
  match s.cfg.map.find? (fun e => e.1 = l) with
  | none => 0
  | some e => if e.2 = (chip, arcade, index, half) then 1 else 2

/-- The neighbour entry of the higher-numbered port `p` of a bonded pair, whose link's entry is `n`: that port faces the far pair's
higher-numbered port, and its own entry of the installation map is compared (07 R306, 15 R579). -/
def State.highNbr (s : State) (p : Nat) (n : Nbr) : Nbr :=
  { n with index := n.index + 1
           map := s.mapOf (2 * p) n.chip.toNat n.arcade.toNat (n.index.toNat + 1) n.half.toNat }

/-- A beacon recorded in the neighbour entry of a link. See 07 R300, R304. -/
def State.recordBeacon (s : State) (l : Nat) (b : Beacon) (st : BitVec 3) : State :=
  let m := s.mapOf l b.chip.toNat b.arcade.toNat b.index.toNat b.half.toNat
  s.updLink l (fun x => { x with nbr := { x.nbr with
    chip := b.chip, arcade := b.arcade.truncate 3, index := b.index.truncate 3, half := b.half.truncate 2
    version := b.version.truncate 4, map := m, state := st } })

/-- The beacon names the neighbour that the entry holds. -/
def Nbr.same (n : Nbr) (b : Beacon) : Bool :=
  n.chip = b.chip && n.arcade = b.arcade.truncate 3 && n.index = b.index.truncate 3 && n.half = b.half.truncate 2

/-- A neighbour changed under an admitted slice (07 R307). -/
def State.neighbourChanged (s : State) (l : Nat) (chip : BitVec 16) : State :=
  if s.admitted.any (fun k => (s.linksOf (s.sl k).id).contains (l / 2, l % 2)) then
    (s.raise (s.linkRec 0x020A l (linkDetail l ||| (chip.zeroExtend 64 <<< 16)))).linkDead l
  else s

/-- BEACON_RECEIPT (R305). -/
def execBeaconReceipt (p : Fin 30) (h : Fin 2) (b : Beacon) (s : State) : Out :=
  let l := 2 * s.lowPort p.val + h.val
  if !s.hasLink p.val h.val then .fault .absentUnit
  else
    let s1 := s.takeIn (fun x => x.link = l && hdrClass x.hdr = 3 && hdrKind x.hdr = 0 && x.bytes = beaconBytes b)
    let x := s1.link l
    if x.phase ≠ .up then .next s1
    else
      let s2 := s1.updLink l (fun y => { y with bcnHeard := s1.now })
      if beaconReserved b then .next (s2.updLink l (fun y => { y with nbr := { y.nbr with state := 4 } }))
      else if !s2.compatible l b then .next (s2.recordBeacon l b 4)
      else
        let s3 := s2.recordBeacon l b 3
        .next (if x.nbr.state = 3 && !x.nbr.same b then s3.neighbourChanged l b.chip else s3)

/-- BEACON_LOST (R308): four intervals without a beacon. -/
def execBeaconLost (p : Fin 30) (h : Fin 2) (s : State) : Out :=
  let l := 2 * s.lowPort p.val + h.val
  if !s.hasLink p.val h.val then .fault .absentUnit
  else
    let x := s.link l
    if x.phase = .up && (x.nbr.state = 3 || x.nbr.state = 4) then
      let t := x.bcnHeard + 4 * s.bcnTreads
      let s1 := s.waitUntil t
      .next (if s1.now < t then s1
        else (s1.updLink l (fun y => { y with nbr := { y.nbr with state := 2 } })).raise
          { cause := 0x020B, src := srcArc (l / 12), detail := linkDetail l })
    else .next s

end Sys2Proof.Machine
end

