-- ==== Sys2Proof/Machine/Fec.lean ====
section
/-! DEFINITION. The Reed-Solomon code of a frame (09 R371, R372): RS(272,256) over GF(2^10). Polynomials are lists of
coefficients, field elements numbers below 1,024.
-/
namespace Sys2Proof.Machine

/-! ### GF(2^10), primitive polynomial x^10 + x^3 + 1 -/

/-- Exclusive or of two field elements. -/
def gadd (a b : Nat) : Nat := a ^^^ b

/-- Multiplication by x. -/
def gx (a : Nat) : Nat := if a < 512 then 2 * a else (2 * a) ^^^ 0x409

/-- The product, by the `n` low bits of `b`. -/
def gmulN : Nat → Nat → Nat → Nat
  | 0, _, _ => 0
  | n + 1, a, b => gadd (if b % 2 = 1 then a else 0) (gmulN n (gx a) (b / 2))

/-- The product in GF(2^10). -/
def gmul (a b : Nat) : Nat := gmulN 10 a b

/-- A power with an exponent of `n` bits. -/
def gpowN : Nat → Nat → Nat → Nat
  | 0, _, _ => 1
  | n + 1, a, e =>
    let r := gpowN n (gmul a a) (e / 2)
    if e % 2 = 1 then gmul a r else r

/-- The power `a` to the `e`, for `e` below 1,024. -/
def gpow (a e : Nat) : Nat := gpowN 10 a e

/-- The inverse of a field element that is not 0. -/
def ginv (a : Nat) : Nat := gpow a 1022

/-- A power of α, the root x of the primitive polynomial. -/
def galpha (e : Nat) : Nat := gpow 2 (e % 1023)

/-! ### Encoding -/

/-- A polynomial, highest coefficient first, times (x − a). -/
def timesRoot (a : Nat) (p : List Nat) : List Nat :=
  (List.zipWith gadd (p ++ [0]) (0 :: p.map (gmul a)))

/-- The generator without its leading 1: the product of (x − α^i) for i from 0 to 15 (09 R371). -/
def rsGen : List Nat := ((List.range 16).foldl (fun p i => timesRoot (galpha i) p) [1]).drop 1

/-- One message symbol divided into the remainder. -/
def rsStep (g r : List Nat) (m : Nat) : List Nat :=
  let f := gadd m (r.headD 0)
  if f = 0 then r.drop 1 ++ [0] else List.zipWith gadd (r.drop 1 ++ [0]) (g.map (gmul f))

/-- The 16 parity symbols of a message, symbol 256 first. -/
def rsParity (msg : List Nat) : List Nat := msg.foldl (rsStep rsGen) (List.replicate 16 0)

/-- The `n` 10-bit symbols of a number, symbol 0 lowest (09 R372). -/
def symbolsOf : Nat → Nat → List Nat
  | 0, _ => []
  | n + 1, x => x % 1024 :: symbolsOf n (x / 1024)

/-- The number whose symbols these are. -/
def ofSymbols : List Nat → Nat
  | [] => 0
  | a :: l => a + 1024 * ofSymbols l

/-- The codeword of a message: symbols 0 to 255 are the message, 256 to 271 the parity. -/
def rsEncode (m : FrameMsg) : Codeword :=
  let l := symbolsOf 256 m.toNat
  BitVec.ofNat 2720 (ofSymbols (l ++ rsParity l))

/-! ### Decoding -/

/-- The value of a polynomial, highest coefficient first. -/
def polyAt (x : Nat) (p : List Nat) : Nat := p.foldl (fun a c => gadd (gmul a x) c) 0

/-- The 16 syndromes of a received word. -/
def syndromes (r : List Nat) : List Nat := (List.range 16).map (fun i => polyAt (galpha i) r)

/-- Two polynomials, lowest coefficient first, added. -/
def polyAdd : List Nat → List Nat → List Nat
  | [], q => q
  | p, [] => p
  | a :: p, b :: q => gadd a b :: polyAdd p q

/-- The state of Berlekamp and Massey's algorithm: locator, its predecessor, length, gap and last discrepancy. -/
structure Bm where
  c : List Nat := [1]
  b : List Nat := [1]
  l : Nat := 0
  m : Nat := 1
  d : Nat := 1

/-- One step, for syndrome `n`. -/
def bmStep (s : List Nat) (t : Bm) (n : Nat) : Bm :=
  let d := (List.range (t.l + 1)).foldl (fun a i => gadd a (gmul (t.c.getD i 0) (s.getD (n - i) 0))) 0
  if d = 0 then { t with m := t.m + 1 }
  else
    let f := gmul d (ginv t.d)
    let c := polyAdd t.c (List.replicate t.m 0 ++ t.b.map (gmul f))
    if 2 * t.l ≤ n then { c, b := t.c, l := n + 1 - t.l, m := 1, d } else { t with c, m := t.m + 1 }

/-- The value of a polynomial, lowest coefficient first. -/
def polyLow (x : Nat) (p : List Nat) : Nat := polyAt x p.reverse

/-- The product of two polynomials, lowest first, below x^16. -/
def polyMul16 (p q : List Nat) : List Nat :=
  (List.range 16).map (fun n => (List.range (n + 1)).foldl (fun a i => gadd a (gmul (p.getD i 0) (q.getD (n - i) 0))) 0)

/-- The formal derivative, lowest first. -/
def polyDeriv (p : List Nat) : List Nat := (p.drop 1).zipIdx.map (fun (a, i) => if i % 2 = 0 then a else 0)

/-- A received word decoded (09 R371): the corrected symbols and the numbers of the symbols corrected; none when the word
is uncorrectable. Log 88 (DEDUCED). -/
def rsDecode (w : Codeword) : Option (List Nat × List Nat) :=
  let r := symbolsOf 272 w.toNat
  let s := syndromes r
  if s.all (fun x => x = 0) then some (r, [])
  else
    let t := (List.range 16).foldl (bmStep s) {}
    if 8 < t.l then none
    else
      let errs := (List.range 272).filter (fun k => polyLow (galpha (1023 - (271 - k))) t.c = 0)
      if errs.length ≠ t.l then none
      else
        let om := polyMul16 s t.c
        let dv := polyDeriv t.c
        let fix := fun (k : Nat) =>
          let e := 271 - k
          let xi := galpha (1023 - e)
          gmul (galpha e) (gmul (polyLow xi om) (ginv (polyLow xi dv)))
        let out := r.zipIdx.map (fun (a, k) => if errs.contains k then gadd a (fix k) else a)
        if (syndromes out).all (fun x => x = 0) then some (out, errs) else none

end Sys2Proof.Machine
end

