-- ==== Sys2Proof/Machine/Link.lean ====
section
/-! DEFINITION. The transmitter of a link (08 R339, R340, R342, R343; 09 R371 to R387, R392, R393): frame slots, side
items, time marks and retries.
-/
namespace Sys2Proof.Machine

/-! ### Slots (08 R339, 09 R369) -/

/-- The slot period is 136 / (7w) treads; the slot allowance is its ceiling plus 8 (09 R382). -/
def Link.allowance (x : Link) : Nat := (136 + 7 * x.width - 1) / (7 * x.width) + 8

/-- The link after a slot: the next slot begins one period later. -/
def Link.nextSlot (x : Link) (now : Nat) : Link :=
  let n := x.slotFrac + 136
  { x with slot := x.slot + 1, slotAt := max now x.slotAt + n / (7 * x.width), slotFrac := n % (7 * x.width) }

/-- The TREAD of the `j`-th slot from the next one on. -/
def Link.slotTime (x : Link) (j : Nat) : Nat := x.slotAt + (x.slotFrac + 136 * j) / (7 * x.width)

/-- The first slot, as TREAD and number, at or after TREAD `t` at a wheel position of `wheel`. -/
def Link.firstSlot (x : Link) (wheel : BitVec 16) (t : Nat) : Option (Nat × Nat) :=
  let j0 := ((t - x.slotAt) * (7 * x.width) - x.slotFrac + 135) / 136
  (((List.range 16).map (· + j0)).find? (fun j => wheel.getLsbD ((x.slot + j) % 16))).map (fun j => (x.slotTime j, x.slot + j))

/-- How many treads more than at width `full` a link takes for `n` slots (08 R341). -/
def Link.narrow (x : Link) (full n : Nat) : Nat := 136 * n / (7 * x.width) - 136 * n / (7 * full)

/-- The retry time of a link (09 R393). -/
def Link.retry (x : Link) : Nat := 2 * x.delay + 16 * x.reg.rtoExtra.toNat

/-- The distance from sequence number `a` to `b`. -/
def seqDist (a b : BitVec 12) : Nat := (b - a).toNat

/-! ### Lanes (09 R373, R400; 07 R280) -/

/-- The data lanes of a link on one of its ports. -/
def laneRange (f : PortForm) (h : Nat) : List Nat :=
  match f with
  | .bif => (List.range 4).map (· + 4 * h)
  | _ => List.range 8

/-- The lanes that carry the `n` positions of a link on port `p` in the direction sent (`tx`) or received. -/
def State.lanesUsed (s : State) (p h n : Nat) (tx : Bool) : List (Nat × Nat) :=
  let x := s.port p
  let own := fun (i : Nat) => decide ((if tx then x.subTx else x.sub) = some i)
  let fail := if tx then x.laneFailTx else x.laneFail
  (((laneRange (s.form p) h).filter (fun i => own i || !fail.getLsbD i)).take n).map (fun i =>
    (p, if own i then 8 else i))

/-- The lane map of a link in one direction: port and lane of each position (09 R373). -/
def State.laneMap (s : State) (l : Nat) (tx : Bool) : List (Nat × Nat) :=
  let p := l / 2
  let w := (s.link l).width
  match s.form p with
  | .bond => s.lanesUsed p 0 (w / 2) tx ++ s.lanesUsed (p + 1) 0 (w / 2) tx
  | _ => s.lanesUsed p (l % 2) w tx

/-! ### Headers (09 Table 09.1) -/

/-- A side item: type and value. -/
abbrev SideItem := BitVec 3 × BitVec 12

/-- A frame's message with its check (09 R374): hcrc over the message with bytes 0 and 1 taken as 0. -/
def frameMsg (kind : BitVec 2) (chan : BitVec 7) (seq ack : BitVec 12) (it : SideItem) (data : BitVec 2496) : FrameMsg :=
  let m : FrameMsg := data ++ kind ++ chan ++ seq ++ ack ++ it.1 ++ it.2 ++ (0#16)
  m ||| (crc16 (bvBytes 320 m)).zeroExtend 2560

/-! ### Side items (09 R377 to R383) -/

/-- Hold marks that still have frames to go: the first in ascending slice number. -/
def LinkSide.takeMark (sd : LinkSide) : Option (SideItem × LinkSide) :=
  match sd.marks.foldl (fun (a : Option (Nat × Nat × Nat)) m => match a with
    | none => some m
    | some x => if m.1 < x.1 then some m else some x) none with
  | none => none
  | some m =>
    let left := sd.marks.erase m
    some ((1, BitVec.ofNat 12 (m.1 * 16 + m.2.1)),
      { sd with marks := if m.2.2 ≤ 1 then left else (m.1, m.2.1, m.2.2 - 1) :: left })

/-- The request to send: the nearest to the number expected. -/
def LinkSeq.takeReq (q : LinkSeq) (now : Nat) : Option (SideItem × LinkSeq) :=
  match (q.reqs.filter (fun r => r.sentAt.isNone)).foldl (fun (a : Option Req) r => match a with
    | none => some r
    | some x => if seqDist q.rxN r.seq < seqDist q.rxN x.seq then some r else some x) none with
  | none => none
  | some r => some ((if r.replay then 3 else 2, r.seq),
      { q with reqs := q.reqs.map (fun x => if x = r then { x with sentAt := some now } else x) })

/-- The value of a credit item (09 Table 09.2); `far` gives the far end's number of a context. -/
def CredItem.item (c : CredItem) (far : Nat → Nat) : SideItem :=
  if c.cls < 2 then (6, BitVec.ofNat 12 (c.cls * 2048 + far c.ctx * 32 + c.value))
  else (7, BitVec.ofNat 12 ((c.cls - 2) * 1024 + c.value))

/-- One copy of the first of these credits taken. -/
def spendCred (c : CredItem) : List CredItem → List CredItem
  | [] => []
  | x :: xs => if x = c then (if c.left ≤ 1 then xs else { c with left := c.left - 1 } :: xs) else x :: spendCred c xs

/-- The credit to send: the oldest change. One of a context waits until the far end's number of the context is known. Log 35 (DEDUCED). -/
def LinkSide.takeCred (sd : LinkSide) (far : Nat → Option Nat) : Option (SideItem × LinkSide) :=
  (sd.creds.find? (fun c => 2 ≤ c.cls || (far c.ctx).isSome)).map (fun c =>
    (c.item (fun n => (far n).getD 0), { sd with creds := spendCred c sd.creds }))

/-- The time echo: the turnaround, saturating; it waits until that is not negative. -/
def LinkSide.takeEcho (sd : LinkSide) (dep : Nat) : Option (SideItem × LinkSide) :=
  match sd.echo with
  | none => none
  | some t => if dep < t then none else some ((5, BitVec.ofNat 12 (min (dep - t) 0xFFF)), { sd with echo := none })

/-- The time mark: this frame's nominal departure. Log 45 (DEDUCED). -/
def LinkSide.takeTime (sd : LinkSide) (now dep : Nat) : Option (SideItem × LinkSide) :=
  if sd.markDue then
    some ((4, BitVec.ofNat 12 dep), { sd with markDue := false, markOut := some dep, lastMark := now })
  else none

/-- The side item of a frame, in the order of R378. -/
def Link.takeItem (x : Link) (now : Nat) (far : Nat → Option Nat) : SideItem × Link :=
  let dep := now - x.allowance
  match x.side.takeMark with
  | some (i, sd) => (i, { x with side := sd })
  | none =>
    match x.sq.takeReq now with
    | some (i, q) => (i, { x with sq := q })
    | none =>
      match x.side.takeCred far with
      | some (i, sd) => (i, { x with side := sd })
      | none =>
        match x.side.takeEcho dep with
        | some (i, sd) => (i, { x with side := sd })
        | none =>
          match x.side.takeTime now dep with
          | some (i, sd) => (i, { x with side := sd })
          | none => ((0, 0), x)

/-! ### Sending -/

/-- The far end's number of a context of link `l`, once a frame of it has come. -/
def State.farCtx (s : State) (l n : Nat) : Option Nat := (s.ctx (64 * (l / 2) + n)).far

/-- The symbols that position `k` of `w` sends of a codeword: k, k + w, ..., each most significant bit first (09 R373). -/
def laneBits (c : Codeword) (w k : Nat) : Nat :=
  (List.range (272 / w)).foldl (fun a i => a * 1024 + c.toNat / 2 ^ (10 * (k + w * i)) % 1024) 0

/-- What the lanes of a link send of a codeword; the spare sends a lane's symbols as well while it mirrors it (09 R373, R396). -/
def State.lanesSend (s : State) (l : Nat) (c : Codeword) : List LaneOut :=
  let m := s.laneMap l true
  m.zipIdx.flatMap (fun ((p, i), k) =>
    let bits := laneBits c m.length k
    { port := p, lane := i, bits } ::
      (if (s.port p).mirror.map (fun x => x.1) = some i then [{ port := p, lane := 8, bits }] else []))

/-- A frame put on the line. -/
def State.emit (s : State) (l : Nat) (kind : BitVec 2) (chan : BitVec 7) (seq : BitVec 12) (data : BitVec 2496) : State :=
  s.updLink l (fun x =>
    let r := x.takeItem s.now (s.farCtx l)
    let c := rsEncode (frameMsg kind chan seq r.2.sq.rxN r.1 data)
    { r.2 with tx := c, lanesOut := s.lanesSend l c })

/-- A new parcel frame: it takes the next sequence number and stays in the replay buffer (09 R386). -/
def State.emitNew (s : State) (l : Nat) (kind : BitVec 2) (chan : BitVec 7) (data : BitVec 2496) (unsch : Bool) : State :=
  let seq := (s.link l).sq.txSeq
  (s.emit l kind chan seq data).updLink l (fun x => { x with sq := { x.sq with
    txSeq := seq + 1, rbuf := x.sq.rbuf ++ [{ seq, kind, chan, data, unsch, sentAt := s.now }] } })

/-- Frame slots that carried no scheduled frame (08 Table 08.14). -/
def State.idleSlot (s : State) (l : Nat) : State :=
  s.updLink l (fun x => { x with cnt := { x.cnt with idle := satInc x.cnt.idle } })

/-- Room in the replay buffer for a frame (09 R386, R387). -/
def State.room (s : State) (l : Nat) (unsch : Bool) : Bool :=
  let b := (s.link l).sq.rbuf
  b.length < rbufCap (s.form (l / 2)) && (!unsch || (b.filter (fun f => f.unsch)).length < 64)

/-- The first frame of the replay queue that is still in the buffer, sent again. -/
def State.sendReplay (s : State) (l : Nat) : Option State :=
  let q := (s.link l).sq
  let todo := q.replayQ.dropWhile (fun n => !q.rbuf.any (fun f => f.seq = n))
  match todo with
  | [] => none
  | n :: rest =>
    match q.rbuf.find? (fun f => f.seq = n) with
    | none => none
    | some f =>
      let s1 := (s.emit l f.kind f.chan f.seq f.data).updLink l (fun x => { x with
        cnt := { x.cnt with replay := satInc x.cnt.replay }
        sq := { x.sq with
          replayQ := rest, replaying := x.sq.replaying && !rest.isEmpty
          rbuf := x.sq.rbuf.map (fun y => if y.seq = n then { y with sentAt := s.now } else y) } })
      some (if f.unsch then s1.idleSlot l else s1)

/-- The context that owns a wheel position of a link; a storage port carries no scheduled parcel (07 R301). Log 111 (DEDUCED). -/
def State.wheelCtx (s : State) (l pos : Nat) : Option Nat :=
  if s.storageLink (l / 2) (l % 2) then none else (s.linkCtxs l).find? (fun c => (s.ctx c).wheel.getLsbD pos)

/-- The first transmission of a context ends without being sent: no credit (08 Table 08.9). -/
def State.noCredit (s : State) (c : Nat) (j : TxJob) : State :=
  ((s.updCtx c (fun x => { x with jobs := x.jobs.drop 1 })).ctxFault 0x0114 c j.bay j.pid).leaveBay j.port j.bay j.rel

/-- The credit of a job's class. -/
def Ctx.credit (x : Ctx) (j : TxJob) : Nat := if j.cls = 0 then x.sCred else x.cCred

/-- Transmissions whose frame 0 is ready and finds no credit are given up; at most `n` of them. -/
def State.dropBroke : Nat → State → Nat → State
  | 0, s, _ => s
  | n + 1, s, c =>
    match (s.ctx c).jobs with
    | [] => s
    | j :: _ =>
      if j.next = 0 && (s.bay (j.port * 128 + j.bay)).frameReady 0 && (s.ctx c).credit j = 0 then
        (s.noCredit c j).dropBroke n c
      else s

/-- The slot of context `c` that its first transmission misses, as TREAD and number: its frame waits from the first such slot on. -/
def State.missSlot (s : State) (l c : Nat) : State :=
  s.updCtx c (fun x => { x with jobs := match x.jobs with
    | [] => []
    | j :: js => { j with waiting := some (j.waiting.getD (s.now, (s.link l).slot)) } :: js })

/-- The next frame of a context's first transmission. A frame that waited for its data, for room, for a replay or for a retrain, and
one that a narrow link sends later than the full width would, adds to the lag of the port (01 R25; 08 R341, R342; 09 R386). Log 102
(DEDUCED). -/
def State.sendJob (s : State) (l c : Nat) (j : TxJob) : State :=
  let b := s.bay (j.port * 128 + j.bay)
  let k := s.link l
  let w := j.waiting.getD (s.now, k.slot)
  let slots := if j.next = 0 then 0 else j.slots + (w.2 - j.slot0)
  let full := fullWidth (s.form (l / 2))
  let s1 := s.emitNew l (if j.next = 0 then 1 else 2) (BitVec.ofNat 7 (c % 64)) (b.frame j.next) false
  let late := (s.now - w.1) + (k.narrow full slots - k.narrow full j.slots)
  let s2 := s1.updCtx c (fun x =>
    let y := if late = 0 then x else x.lagged (x.lagCur.toNat + late)
    let z := if j.next ≠ 0 then y else if j.cls = 0 then { y with sCred := y.sCred - 1 } else { y with cCred := y.cCred - 1 }
    { z with jobs := if j.next + 1 < j.frames then { j with next := j.next + 1, waiting := none, slot0 := k.slot, slots } :: z.jobs.drop 1
                     else z.jobs.drop 1 })
  if j.next + 1 < j.frames then s2
  else (s2.updLink l (fun x => { x with cnt := { x.cnt with tx := satInc x.cnt.tx } })).leaveBay j.port j.bay j.rel

/-- The scheduled frame of the slot's owner, if one is ready (08 R340). -/
def State.sendSched (s : State) (l : Nat) : State × Bool :=
  match s.wheelCtx l ((s.link l).slot % 16) with
  | none => (s, false)
  | some c =>
    let s1 := s.dropBroke (s.ctx c).jobs.length c
    match (s1.ctx c).jobs with
    | [] => (s1, false)
    | j :: _ =>
      if (s1.bay (j.port * 128 + j.bay)).frameReady j.next && s1.room l false then (s1.sendJob l c j, true)
      else (s1.missSlot l c, false)

/-- A slot that carries no scheduled frame of its owner: the owner's frame misses it. -/
def State.skipOwner (s : State) (l : Nat) : State :=
  match s.wheelCtx l ((s.link l).slot % 16) with
  | none => s
  | some c => s.missSlot l c

/-- The send TREAD of an epoch parcel is the nominal departure of its first frame (09 R382). -/
def stampEpoch (x : TxParcel) (dep : Nat) : TxParcel :=
  if hdrClass x.hdr = 1 ∧ hdrKind x.hdr = 1 then { x with bytes := x.bytes.take 8 ++ leBytes 8 dep } else x

/-- The unscheduled parcel of a class that may send its next frame: the class, its parcel and its credits. -/
def State.unschReady (s : State) (l : Nat) : Option (Nat × TxParcel) :=
  let x := s.link l
  let ok := fun (p : TxParcel) (cred : Nat) => s.room l true && (p.next ≠ 0 || 0 < cred)
  let pick := fun (cls : Nat) (q : List TxParcel) (cred : Nat) => match q with
    | p :: _ => if ok p cred then some (cls, p) else none
    | [] => none
  if !x.bcnSent then
    match x.sq.mq.find? (fun p => hdrKind p.hdr = 0) with
    | some p => if ok p x.side.mCred then some (3, p) else none
    | none => none
  else
    match if s.storageLink (l / 2) (l % 2) then none else pick 1 x.sq.ctlq x.side.cCred with
    | some r => some r
    | none =>
      match if s.storageLink (l / 2) (l % 2) then pick 2 x.sq.dq x.side.dCred else none with
      | some r => some r
      | none => pick 3 x.sq.mq x.side.mCred

/-- The next frame of an unscheduled parcel. -/
def State.sendUnschFrame (s : State) (l cls : Nat) (p0 : TxParcel) : State :=
  let p := if p0.next = 0 then stampEpoch p0 (s.now - (s.link l).allowance) else p0
  let s1 := s.emitNew l (if p.next = 0 then 1 else 2) p.chan (frameOf p.hdr (leNat p.bytes) p.next) true
  let last := decide (parcelFrames p.bytes.length ≤ p.next + 1)
  let swap := fun (q : List TxParcel) =>
    if last then q.erase p0 else q.map (fun y => if y = p0 then { p with next := p.next + 1 } else y)
  s1.updLink l (fun x =>
    let sd := x.side
    let sd1 := if p.next ≠ 0 then sd else if cls = 1 then { sd with cCred := sd.cCred - 1 }
      else if cls = 2 then { sd with dCred := sd.dCred - 1 } else { sd with mCred := sd.mCred - 1 }
    let q := if cls = 1 then { x.sq with ctlq := swap x.sq.ctlq } else if cls = 2 then { x.sq with dq := swap x.sq.dq }
      else { x.sq with mq := swap x.sq.mq }
    { x with side := sd1, sq := q, bcnSent := x.bcnSent || (cls = 3 && hdrKind p.hdr = 0 && last) })

/-- An idle frame: its seq is the next parcel frame's (09 Table 09.1). -/
def State.sendIdle (s : State) (l : Nat) : State := s.emit l 0 0 (s.link l).sq.txSeq 0

/-- What fills a slot (08 R340). Until the beacon that follows a training is out, no other new parcel is sent. Log 46 (DEDUCED). -/
def State.fillSlot (s : State) (l : Nat) : State :=
  match s.sendReplay l with
  | some t => t.skipOwner l
  | none =>
    let s0 := s.updLink l (fun x => { x with sq := { x.sq with replayQ := [], replaying := false } })
    let (s1, done) := if (s0.link l).bcnSent then s0.sendSched l else (s0.skipOwner l, false)
    if done then s1
    else
      let s2 := s1.idleSlot l
      match s2.unschReady l with
      | some (cls, p) => s2.sendUnschFrame l cls p
      | none => s2.sendIdle l

/-- FRAME_SLOT (R340): the next slot of a link that is up. -/
def execFrameSlot (p : Fin 30) (h : Fin 2) (s : State) : Out :=
  let l := 2 * s.lowPort p.val + h.val
  if !s.hasLink p.val h.val then .fault .absentUnit
  else if (s.link l).phase ≠ .up || (s.link l).width = 0 then .next s
  else
    let s1 := s.waitUntil (s.link l).slotAt
    .next ((s1.fillSlot l).updLink l (fun x => x.nextSlot s1.now))

/-! ### Time marks and retries -/

/-- Treads after a mark from which the next one waits for its frame: it leaves before 512 have passed unless other items keep its slots
(09 R383). Log 113 (DESIGN CHOICE). -/
def markEvery : Nat := 256

/-- TIME_MARK_SEND (R383): a mark is due after the last once its echo is back, 8,192 treads after it otherwise. -/
def execTimeMarkSend (p : Fin 30) (h : Fin 2) (s : State) : Out :=
  let l := 2 * s.lowPort p.val + h.val
  if !s.hasLink p.val h.val then .fault .absentUnit
  else
    let x := s.link l
    if x.phase ≠ .up || x.side.markDue then .next s
    else
      let t := x.side.lastMark + (if x.side.markOut.isSome then 8192 else markEvery)
      let s1 := s.waitUntil t
      .next (if s1.now < t then s1
        else s1.updLink l (fun x => { x with side := { x.side with markDue := true, markOut := none } }))

/-- A replay from sequence number `r`: every frame of the buffer from it to the newest (09 R392). -/
def LinkSeq.replayFrom (q : LinkSeq) (r : BitVec 12) : LinkSeq :=
  match q.rbuf.dropWhile (fun f => f.seq ≠ r) with
  | [] => q
  | fs => { q with replayQ := fs.map (fun f => f.seq), replaying := true }

/-- RETRY_TIME_EXPIRY (R393): the oldest frame of the buffer has waited the retry time. -/
def execRetryTimeExpiry (p : Fin 30) (h : Fin 2) (s : State) : Out :=
  let l := 2 * s.lowPort p.val + h.val
  if !s.hasLink p.val h.val then .fault .absentUnit
  else
    let x := s.link l
    match x.sq.rbuf with
    | [] => .next s
    | f :: _ =>
      if x.phase ≠ .up || x.sq.replayQ.contains f.seq then .next s
      else
        let t := f.sentAt + x.retry
        let s1 := s.waitUntil t
        .next (if s1.now < t then s1
          else s1.updLink l (fun x => { x with
            cnt := { x.cnt with rto := satInc x.cnt.rto }
            sq := if x.reg.mode then x.sq.replayFrom f.seq else { x.sq with replayQ := x.sq.replayQ ++ [f.seq] } }))

/-- The request sent longest ago. -/
def LinkSeq.oldestReq (q : LinkSeq) : Option Req :=
  (q.reqs.filter (fun r => r.sentAt.isSome)).foldl (fun (a : Option Req) r => match a with
    | none => some r
    | some x => if r.sentAt.getD 0 < x.sentAt.getD 0 then some r else some x) none

/-- REQUEST_REPEAT (R394): a request that has gone unanswered for the retry time is queued again. -/
def execRequestRepeat (p : Fin 30) (h : Fin 2) (s : State) : Out :=
  let l := 2 * s.lowPort p.val + h.val
  if !s.hasLink p.val h.val then .fault .absentUnit
  else
    let x := s.link l
    match x.sq.oldestReq with
    | none => .next s
    | some r =>
      let t := (r.sentAt.getD 0) + x.retry
      let s1 := s.waitUntil t
      .next (if s1.now < t then s1
        else s1.updLink l (fun x => { x with sq := { x.sq with reqs := x.sq.reqs.map (fun y =>
          if y = r then { y with sentAt := none } else y) } }))

end Sys2Proof.Machine
end

