-- ==== Sys2Proof/Machine/LinkRx.lean ====
section
/-! DEFINITION. The receiver of a link (08 R344, R345, R364; 09 R375, R376, R380 to R394): frames verified and taken in
sequence, side items, and parcels put together in bays.
-/
namespace Sys2Proof.Machine

/-! ### Corrected symbols -/

/-- Symbols corrected counted on their lanes, in frame `n` of the link (09 R395). -/
def State.countSyms (s : State) (l n : Nat) (errs : List Nat) : State :=
  let m := s.laneMap l false
  s.each errs (fun s k =>
    match m[k % m.length]? with
    | none => s
    | some (p, i) => s.updPort p (fun x => { x with
        laneSym := SMap.upd 0 x.laneSym i (· + 1)
        laneWin := SMap.upd [] x.laneWin i (fun l => (l.filter (fun t => n < t + 1048576)) ++ [n]) }))

/-! ### Fields of a frame (09 Table 09.1) -/

def frameCrc (m : FrameMsg) : BitVec 16 := m.extractLsb' 0 16
def frameVal (m : FrameMsg) : BitVec 12 := m.extractLsb' 16 12
def frameItem (m : FrameMsg) : BitVec 3 := m.extractLsb' 28 3
def frameAck (m : FrameMsg) : BitVec 12 := m.extractLsb' 31 12
def frameSeq (m : FrameMsg) : BitVec 12 := m.extractLsb' 43 12
def frameChan (m : FrameMsg) : BitVec 7 := m.extractLsb' 55 7
def frameKind (m : FrameMsg) : BitVec 2 := m.extractLsb' 62 2
def frameData (m : FrameMsg) : BitVec 2496 := m.extractLsb' 64 2496

/-- A decoded frame is verified: its check matches and kind and channel hold no reserved value (09 R375). -/
def frameOk (m : FrameMsg) : Bool :=
  crc16 (bvBytes 320 (m &&& ~~~(0xFFFF#2560))) = frameCrc m && frameKind m ≠ 3 && (frameChan m).toNat ≤ 66

/-! ### Acknowledgements and side items -/

/-- An ack (09 R386): frames before it leave the replay buffer; one outside the buffer's range is ignored and counted. -/
def Link.takeAck (x : Link) (ack : BitVec 12) : Link :=
  let old := match x.sq.rbuf with | f :: _ => f.seq | [] => x.sq.txSeq
  let d := seqDist old ack
  if d ≤ x.sq.rbuf.length then { x with sq := { x.sq with rbuf := x.sq.rbuf.drop d } }
  else { x with cnt := { x.cnt with ackbad := satInc x.cnt.ackbad } }

/-- The ordinal of a hold mark (09 R380): bits [3:0] as sent, from k − 8 to k + 7. -/
def markOrd (k : Word) (v : BitVec 4) : Word :=
  let lo := k - 8
  lo + (v - lo.truncate 4).zeroExtend 32

/-- The ordinal of the most recent landing start of a slice; before its first landing, the one before it. -/
def Slice.lastStart (x : Slice) : Word := if x.started then x.land.ord else x.land.ord - 1

/-- The slice is at its present landing and has not been released from it. -/
def Slice.atLanding (x : Slice) : Bool :=
  (x.phase = .landing || x.phase = .held || x.phase = .saved) && !x.land.released

/-- A hold mark on link `l` (02 R68, R74; 09 R380): recorded, and sent on the other links of the slice. One for a landing
already left is a fault, and the part holds at its next landing. Log 49 (DEDUCED). -/
def State.takeHoldMark (s : State) (l : Nat) (v : BitVec 12) : State :=
  let k := (v.extractLsb' 4 8).toNat
  let x := s.sl k
  let o := markOrd x.lastStart (v.extractLsb' 0 4)
  let here := x.atLanding && o = x.land.ord
  if !x.admitted || x.marks.contains o then s
  else
    let s1 := (s.updSl k (fun y => { y with marks := noteMark y.marks o })).markLinks k o (some l)
    if here then s1.updLand k (fun y => { y with holdPend := true })
    else if x.started && (o = x.land.ord || ordBefore o x.land.ord) then
      (s1.updSl k (fun y => { y with err := { y.err with holdNext := some o } })).raise
        (FRec.schedule 0x010C (srcArc (l / 12)) (some k) (o ++ BitVec.ofNat 32 k))
    else s1

/-- A selective request (09 R390). -/
def LinkSeq.takeSelective (q : LinkSeq) (n : BitVec 12) : LinkSeq :=
  if q.rbuf.any (fun f => f.seq = n) && !q.replayQ.contains n then { q with replayQ := q.replayQ ++ [n] } else q

/-- A replay request (09 R392): one for a number that is still to be re-sent is ignored. -/
def LinkSeq.takeReplay (q : LinkSeq) (n : BitVec 12) : LinkSeq :=
  if q.replaying && q.replayQ.contains n then q else q.replayFrom n

/-- A time echo (09 R384): a round trip, and the link delay once 16 are held. -/
def LinkSide.takeTrip (sd : LinkSide) (now turn : Nat) : LinkSide :=
  match sd.markOut with
  | none => sd
  | some m =>
    let ts := sd.trips ++ [now - m - turn]
    let t := ts.drop (ts.length - 16)
    { sd with markOut := none, trips := t, delayL := if t.length = 16 then some ((t.sum + 31) / 32) else sd.delayL }

/-- A credit count after a credit value (09 R381). -/
def credStep (held new : Nat) : Nat := (new + 32 - held % 32) % 32

/-- A scheduled credit for context `c` (09 Table 09.2). -/
def Ctx.takeCredit (x : Ctx) (isS : Bool) (v : Nat) : Ctx :=
  if isS then { x with sCred := x.sCred + credStep x.sHeld v, sHeld := v }
  else { x with cCred := x.cCred + credStep x.cHeld v, cHeld := v }

/-- An unscheduled credit. -/
def LinkSide.takeCredit (sd : LinkSide) (cls v : Nat) : LinkSide :=
  match cls with
  | 0 => { sd with cCred := sd.cCred + credStep sd.cHeld v, cHeld := v }
  | 1 => { sd with dCred := sd.dCred + credStep sd.dHeld v, dHeld := v }
  | 2 => { sd with mCred := sd.mCred + credStep sd.mHeld v, mHeld := v }
  | _ => sd

/-- The side item of a verified frame (09 Table 09.2). -/
def State.takeItem (s : State) (l : Nat) (t : BitVec 3) (v : BitVec 12) : State :=
  match t.toNat with
  | 1 => s.takeHoldMark l v
  | 2 => s.updLink l (fun x => { x with sq := x.sq.takeSelective v })
  | 3 => s.updLink l (fun x => { x with sq := x.sq.takeReplay v })
  | 4 => s.updLink l (fun x => { x with side := { x.side with echo := some s.now, parentMark := some (v.toNat, s.now) } })
  | 5 => s.updLink l (fun x => { x with side := x.side.takeTrip s.now v.toNat })
  | 6 =>
    let c := 64 * (l / 2) + (v.extractLsb' 5 6).toNat
    if (s.ctx c).en then s.updCtx c (fun x => x.takeCredit (!v.getLsbD 11) (v.extractLsb' 0 5).toNat) else s
  | 7 => s.updLink l (fun x => { x with side := x.side.takeCredit (v.extractLsb' 10 2).toNat (v.extractLsb' 0 5).toNat })
  | _ => s

/-! ### Scheduled parcels (08 R344, R345) -/

/-- The upcoming action that a parcel identifier names in an entry: RECV or REDUCE, from 2,048 treads before its fire tread on. -/
def State.pidAct (s : State) (k flight i j : Nat) (g : Seg) (e : TtEnt) (r0 : Nat) (pid : Word) : Option TtAct :=
  let r := (pid.toNat % 2 ^ 20 + 2 ^ 20 - e.pid.toNat % 2 ^ 20) % 2 ^ 20
  let a : TtAct := { t := g.base + BitVec.ofNat 64 (e.t + r * e.period), flight, seg := i, ent := j, r, e }
  if (e.op = 3 || e.op = 4) && r0 ≤ r && r ≤ e.count1 && a.pid = pid && s.rawOf k a.t ≤ s.now + 2048 then some a else none

/-- The actions of a context that a parcel identifier names and that have not fired. -/
def State.pidActs (s : State) (c : Nat) (pid : Word) : List TtAct :=
  (s.ctx c).streams.flatMap (fun st => st.segs.zipIdx.flatMap (fun (g, i) =>
    (g.ents.zip g.prog).zipIdx.filterMap (fun ((e, r), j) => s.pidAct (s.ctxSlice c) st.flight i j g e r pid)))

/-- The first action in list order that a parcel may match before it has fired: it is open until its missing-parcel tread. -/
def State.openActs (s : State) (c : Nat) (pid : Word) : Option TtAct :=
  ((s.pidActs c pid).filter (fun a => s.now ≤ s.missTread c (s.awaitOf c a false false))).foldl
    (fun b a => match b with
      | none => some a
      | some x => if a.before x then some a else some x) none

/-- A parcel comes after its missing-parcel tread: its copy is dropped and counted, and is no fault (02 R49). -/
def State.lateCopy (s : State) (c : Nat) (pid : Word) : Bool := (s.ctx c).missed.contains pid || !(s.pidActs c pid).isEmpty

/-- The open entry that an arriving parcel matches: one that has fired, then one that has not (R344). -/
def State.openEntry (s : State) (c : Nat) (pid : Word) : Option (Await × Bool) :=
  match (s.ctx c).awaits.find? (fun w => w.pid = pid && !w.matched) with
  | some w => some (w, true)
  | none => (s.openActs c pid).map (fun a => (s.awaitOf c a false false, false))

/-- A parcel that is dropped: its later frames are passed over. -/
def dropAsm (chan : Nat) (h : BitVec 128) : RxAsm :=
  { chan, hdr := h, bayP := 0, bay := 0, next := 1, frames := 0, drop := true }

/-- The reassembly of a channel replaced. -/
def State.putAsm (s : State) (l : Nat) (a : RxAsm) : State :=
  s.updLink l (fun x => { x with sq := { x.sq with asm_ := a :: x.sq.asm_.filter (fun y => y.chan ≠ a.chan) } })

/-- A parcel of a channel dropped, counted. -/
def State.dropParcel (s : State) (l chan : Nat) (h : BitVec 128) : State := (s.dropOn l).putAsm l (dropAsm chan h)

/-- The slices whose step a fault of an arriving parcel aborts where no context shows one (08 R345): those with a context on the link; a
storage port belongs to every slice (07 R302). Log 112 (DESIGN CHOICE). -/
def State.stepsOn (s : State) (l : Nat) : List Nat :=
  if s.storageLink (l / 2) (l % 2) then s.runningSlices else ((s.linkCtxs l).map (fun c => s.ctxSlice c)).eraseDups

/-- The record of a check of an arriving parcel without a context; `own` is the slice that its header names. -/
def State.linkFault (s : State) (cause : BitVec 16) (l : Nat) (h : BitVec 128) (own : Option Nat) : State :=
  let ks := match own.filter (fun k => (s.sl k).admitted) with
    | some k => [k]
    | none => s.stepsOn l
  s.raise { FRec.schedule cause (srcArc (l / 12)) (match ks with | [k] => some k | _ => none)
              (arcDetail (l / 2) (l % 2) 0 0 (hdrPid h)) with errs := ks }

/-- A complete parcel: an entry that has fired is done, an earlier one will be as it fires; the bay is no longer waited for. -/
def State.endParcel (s : State) (c : Nat) (p b : Nat) : State :=
  let key := p * 128 + b
  if (s.bay key).whole then
    (s.updBay key (fun x => x.arrive s.now)).updCtx c (fun x => { x with
      awaits := x.awaits.filterMap (fun w =>
        if w.matched && w.bayP = p && w.bay = b then (if w.fired then none else some { w with done := true }) else some w) })
  else s

/-- Frame 0 of a parcel that matches an open entry: the bay and length checks, and the bay is taken. -/
def State.takeMatch (s : State) (l c chan : Nat) (w : Await) (fired : Bool) (d : BitVec 2496) : State :=
  let h := d.extractLsb' 0 128
  let key := w.bayP * 128 + w.bay
  if { s.bay key with expect := false } ≠ ({} : Bay) then (s.dropParcel l chan h).ctxFault 0x0111 c w.bay (hdrPid h)
  else if parcelFrames (hdrLen h) ≠ w.frames || 8192 < hdrLen h then
    (s.dropParcel l chan h).ctxFault 0x0112 c w.bay (hdrPid h)
  else
    let s1 := s.updBay key (fun b => { (({ b with owner := some c }).takeFrame 0 d) with expect := true })
    let s2 := s1.updCtx c (fun x => { x with
      awaits := if fired then x.awaits.map (fun y => if y = w then { y with matched := true } else y)
                else x.awaits ++ [{ w with matched := true }]
      filter := if s.hallOut (s.ctxSlice c) (w.pid.toNat / 2 ^ 20) w.vh w.en then satInc x.filter else x.filter })
    let s3 := s2.updLink l (fun x => { x with cnt := { x.cnt with rx := satInc x.cnt.rx } })
    (s3.putAsm l { chan, hdr := h, bayP := w.bayP, bay := w.bay, next := 1, frames := w.frames, drop := false }).endParcel
      c w.bayP w.bay

/-- Frame 0 of a scheduled parcel (08 Table 08.9). Parcels for a dead context are dropped (09 R404); those of a slice that
has just made an abort stop are dropped and counted (12 R494). -/
def State.startSched (s : State) (l chan : Nat) (d : BitVec 2496) : State :=
  let h := d.extractLsb' 0 128
  if !hdrOk h then (s.dropParcel l chan h).linkFault 0x010E l h none
  else
    match (if s.storageLink (l / 2) (l % 2) then none else s.sliceCtx (hdrSlice h) l) with
    | none => (s.dropParcel l chan h).linkFault 0x010F l h (some (hdrSlice h))
    | some c =>
      let s1 := s.updCtx c (fun x => { x with far := some chan })
      if (s1.ctx c).dead then s1.putAsm l (dropAsm chan h)
      else if s1.now < (s1.sl (hdrSlice h)).err.dropTo then s1.dropParcel l chan h
      else
        match s1.openEntry c (hdrPid h) with
        | some (w, fired) => s1.takeMatch l c chan w fired d
        | none =>
          let s2 := s1.dropParcel l chan h
          if s1.lateCopy c (hdrPid h) then s2 else s2.ctxFault 0x0110 c 0 (hdrPid h)

/-! ### Unscheduled parcels (08 R328, R343, Table 08.3) -/

/-- Floating bays of a port that classes D and M hold. -/
def State.floatUsed (s : State) (p : Nat) : Nat :=
  let held := fun (b : Nat) => s.bay (p * 128 + b) ≠ ({} : Bay) && hdrClass (s.bay (p * 128 + b)).hdr ≠ 1
  ((List.range 4).filter (fun i => held (124 + i))).length

/-- A free bay for class `cls` (1 control, 2 D, 3 M). Log 50 (DEDUCED). -/
def State.freeFor (s : State) (p cls : Nat) : Option Nat :=
  let own := if cls = 2 then (List.range 16).map (· + 104) else if cls = 3 then (List.range 4).map (· + 120) else []
  let float := if cls = 1 || s.floatUsed p < 2 then (List.range 4).map (· + 124) else []
  (own ++ float).find? (fun b => s.bay (p * 128 + b) = ({} : Bay))

/-- The kind is one that Table 08.3 gives the class. -/
def unschKind (cls kind : Nat) : Bool :=
  if cls = 1 then 1 ≤ kind && kind ≤ 5 else if cls = 2 then kind ≤ 3 else cls = 3 && kind ≤ 2

/-- A complete unscheduled parcel waits for its receipt. -/
def State.endUnsch (s : State) (l p b : Nat) : State :=
  let x := s.bay (p * 128 + b)
  if x.whole then { s with inbox := s.inbox ++ [{ link := l, hdr := x.hdr, bytes := x.bytes, bayP := p, bay := b }] } else s

/-- Frame 0 of an unscheduled parcel. One whose class, kind or length is not one of its channel, or that finds no bay, is
dropped, and its credit goes back. -/
def State.startUnsch (s : State) (l chan : Nat) (d : BitVec 2496) : State :=
  let h := d.extractLsb' 0 128
  let cls := chan - 63
  let p := l / 2
  let back := fun (t : State) => (t.dropParcel l chan h).returnUnsch l (cls + 1)
  if !hdrOk h then (back s).linkFault 0x010E l h none
  else if hdrClass h ≠ cls || !unschKind cls (hdrKind h) || 8192 < hdrLen h || (cls = 1 && s.storageLink p (l % 2)) then back s
  else
    match s.freeFor p cls with
    | none => back s
    | some b =>
      let s1 := s.updBay (p * 128 + b) (fun x => x.takeFrame 0 d)
      (s1.putAsm l { chan, hdr := h, bayP := p, bay := b, next := 1, frames := parcelFrames (hdrLen h), drop := false }).endUnsch
        l p b

/-! ### Frames of parcels in sequence (09 R376, R389, R391) -/

/-- A later frame of a channel's parcel. -/
def State.laterFrame (s : State) (l chan : Nat) (d : BitVec 2496) : State :=
  match (s.link l).sq.asm_.find? (fun a => a.chan = chan) with
  | none => s
  | some a =>
    if a.drop || a.frames ≤ a.next then s
    else
      let s1 := (s.updBay (a.bayP * 128 + a.bay) (fun x => x.takeFrame a.next d)).putAsm l { a with next := a.next + 1 }
      if chan < 64 then
        match s1.sliceCtx (hdrSlice a.hdr) l with
        | none => s1
        | some c => s1.endParcel c a.bayP a.bay
      else s1.endUnsch l a.bayP a.bay

/-- Entries of the link's contexts that are past their missing-parcel tread have made their placeholders (02 R49). -/
def State.pastDue (s : State) (l : Nat) : State :=
  s.each (s.linkCtxs l) (fun s c => s.each ((s.ctx c).awaits.filter (fun w => w.fired && decide (s.missTread c w < s.now)))
    (fun s w => s.makeMissing c w))

/-- An accepted frame delivered. -/
def State.deliverFrame (s0 : State) (l : Nat) (f : TxFrame) : State :=
  let s := s0.pastDue l
  let c := f.chan.toNat
  if f.kind = 1 then (if c < 64 then s.startSched l c f.data else s.startUnsch l c f.data) else s.laterFrame l c f.data

/-- Requests whose gap is closed: their number lies before N, or the window holds it. -/
def LinkSeq.closeReqs (q : LinkSeq) : LinkSeq :=
  { q with reqs := q.reqs.filter (fun r =>
      seqDist q.rxN r.seq < 2048 && (r.replay || !q.window.any (fun f => f.seq = r.seq))) }

/-- Frame N accepted: N moves past it. -/
def State.acceptFrame (s : State) (l : Nat) (f : TxFrame) : State :=
  (s.updLink l (fun x => { x with sq := ({ x.sq with
    rxN := x.sq.rxN + 1, window := x.sq.window.filter (fun y => y.seq ≠ f.seq) }).closeReqs })).deliverFrame l f

/-- Held frames that now follow in order; at most `n`. -/
def State.drainWindow : Nat → State → Nat → State
  | 0, s, _ => s
  | n + 1, s, l =>
    match (s.link l).sq.window.find? (fun f => f.seq = (s.link l).sq.rxN) with
    | none => s
    | some f => (s.acceptFrame l f).drainWindow n l

/-- A replay request for N queued unless one is outstanding. -/
def LinkSeq.askReplay (q : LinkSeq) : LinkSeq :=
  if q.reqs.any (fun r => r.replay) then q else { q with reqs := q.reqs ++ [{ replay := true, seq := q.rxN, sentAt := none }] }

/-- Selective requests for the numbers from N to before `n` that are neither held nor requested. -/
def LinkSeq.askMissing (q : LinkSeq) (n : Nat) : LinkSeq :=
  let ms := ((List.range n).map (fun i => q.rxN + BitVec.ofNat 12 i)).filter (fun x =>
    !q.window.any (fun f => f.seq = x) && !q.reqs.any (fun r => !r.replay && r.seq = x))
  { q with reqs := q.reqs ++ ms.map (fun x => { replay := false, seq := x, sentAt := none }) }

/-- A sequence number `d` past N that is not N: what the receiver asks for; `hold` is the frame to hold. -/
def LinkSeq.gap (q : LinkSeq) (mode : Bool) (d : Nat) (hold : Option TxFrame) : LinkSeq :=
  if mode then q.askReplay
  else if d ≤ 63 then
    let q1 := q.askMissing d
    match hold with
    | none => q1
    | some f => if q1.window.any (fun y => y.seq = f.seq) then q1 else ({ q1 with window := q1.window ++ [f] }).closeReqs
  else q.askReplay

/-- A verified parcel frame by its sequence number (09 R389, R391). -/
def State.takeParcelFrame (s : State) (l : Nat) (f : TxFrame) : State :=
  let d := seqDist (s.link l).sq.rxN f.seq
  if d = 0 then (s.acceptFrame l f).drainWindow 64 l
  else if d < 2048 then s.updLink l (fun x => { x with sq := x.sq.gap x.reg.mode d (some f) })
  else s.updLink l (fun x => { x with cnt := { x.cnt with dup := satInc x.cnt.dup } })

/-- An idle frame's sequence number (09 R389, R391). -/
def State.takeIdle (s : State) (l : Nat) (seq : BitVec 12) : State :=
  let d := seqDist (s.link l).sq.rxN seq
  if d = 0 || 2048 ≤ d then s else s.updLink l (fun x => { x with sq := x.sq.gap x.reg.mode d none })

/-- A verified frame. -/
def State.takeFrame (s : State) (l : Nat) (m : FrameMsg) : State :=
  let s1 := (s.updLink l (fun x => x.takeAck (frameAck m))).takeItem l (frameItem m) (frameVal m)
  if frameKind m = 0 then s1.takeIdle l (frameSeq m)
  else
    s1.takeParcelFrame l
      { seq := frameSeq m, kind := frameKind m, chan := frameChan m, data := frameData m, unsch := false, sentAt := s.now }

/-- The receiver's count of frames, for windows of slots; an uncorrectable one is kept for the last 16 slots. -/
def Link.countFrame (x : Link) (bad : Bool) : Link :=
  let n := x.rxCount + 1
  let us := x.ueSlots.filter (fun t => n < t + 16)
  { x with rxCount := n, ueSlots := if bad then us ++ [n] else us
           cnt := if bad then { x.cnt with fecUe := satInc x.cnt.fecUe } else x.cnt }

/-- FRAME_RECEIPT (R375). -/
def execFrameReceipt (p : Fin 30) (h : Fin 2) (w : Codeword) (s : State) : Out :=
  let l := 2 * s.lowPort p.val + h.val
  if !s.hasLink p.val h.val then .fault .absentUnit
  else if (s.link l).phase ≠ .up then .next s
  else
    match rsDecode w with
    | none => .next (s.updLink l (fun x => x.countFrame true))
    | some (syms, errs) =>
      let s1 := s.updLink l (fun x => x.countFrame false)
      let s2 := if errs.isEmpty then s1
        else (s1.updLink l (fun x => { x with cnt := { x.cnt with fecCe := satInc x.cnt.fecCe } })).countSyms l
          (s1.link l).rxCount errs
      let m : FrameMsg := BitVec.ofNat 2560 (ofSymbols (syms.take 256))
      .next (if frameOk m then s2.takeFrame l m
        else s2.updLink l (fun x => { x with cnt := { x.cnt with hcrc := satInc x.cnt.hcrc } }))

end Sys2Proof.Machine
end

