-- ==== Sys2Proof/Machine/Train.lean ====
section
/-! DEFINITION. Lane health, spare substitution, retrains, trainings and the resume of a link (09 R395 to R408).
-/
namespace Sys2Proof.Machine

/-! ### Links of lanes -/

/-- The link that a lane of port `p` belongs to; the spare lane of a bifurcated port belongs to half A (07 R280). -/
def State.laneLink (s : State) (p lane : Nat) : Nat :=
  match s.form p with
  | .bond => 2 * s.lowPort p
  | .whole => 2 * p
  | .bif => if lane < 4 || lane = 8 then 2 * p else 2 * p + 1

/-- The ports of a link. -/
def State.linkPorts (s : State) (l : Nat) : List Nat :=
  match s.form (l / 2) with
  | .bond => [l / 2, l / 2 + 1]
  | _ => [l / 2]

/-- The spare lane may replace a lane in the direction sent (`tx`) or received: half B has none (07 R280). -/
def State.spareServes (s : State) (p lane : Nat) (tx : Bool) : Bool :=
  let x := s.port p
  lane < 8 && (s.form p != .bif || lane < 4) && x.spareEn && !(if tx then x.laneFailTx else x.laneFail).getLsbD 8

/-- A substitution under way on a port is abandoned (09 R396). -/
def Port.abandon (x : Port) : Port := { x with subst := none, mirror := none }

/-! ### Retrains (09 R398, R402) -/

/-- A fast retrain starts at this end: it stops sending frames, and is paused until the resume. -/
def State.startRetrain (s : State) (l : Nat) : State :=
  let x := s.link l
  if x.phase = .up || x.phase = .waitResume then
    let s1 := s.updLink l (fun x => { x with
      phase := .fast, kept := true
      pauseAt := match x.pauseAt with | some t => some t | none => some s.now
      cnt := { x.cnt with retrain := satInc x.cnt.retrain }
      nbr := { x.nbr with state := 1 } })
    s1.each (s1.linkPorts l) (fun s p => s.updPort p Port.abandon)
  else s

/-- The pause of a link ends: it is counted, and kept for the missing-parcel treads of R403. -/
def Link.endPause (x : Link) (now : Nat) : Link :=
  match x.pauseAt with
  | none => x
  | some t => { x with pauseAt := none, pauses := x.pauses ++ [(t, now)]
                       cnt := { x.cnt with pause := satAdd x.cnt.pause (now - t) } }

/-- A link leaves its session for the phase given: it is dead for the contexts it carried (09 R402, R404). -/
def State.takeDown (s : State) (l : Nat) (ph : LinkPhase) : State :=
  let s1 := s.updLink l (fun x => { (x.endPause s.now) with phase := ph, kept := false })
  (s1.each (s1.linkPorts l) (fun s p => s.updPort p Port.abandon)).linkDead l

/-- A full training starts (09 R402). -/
def State.startFull (s : State) (l : Nat) : State :=
  (s.takeDown l .full).updLink l (fun x => { x with
    cnt := { x.cnt with train := satInc x.cnt.train }, nbr := { x.nbr with state := 1 } })

/-! ### Lane health (09 R395, R396) -/

/-- The payload of a management parcel of a substitution (log entry 22, DESIGN CHOICE): what, lane, port of the pair, frame slot. -/
def mgmtBytes (what lane p slot : Nat) : List Byte :=
  [BitVec.ofNat 8 what, BitVec.ofNat 8 lane, BitVec.ofNat 8 (p % 2), 0] ++ leBytes 4 slot

/-- An arrived management parcel of link `l` with these bytes. -/
def isMgmt (l : Nat) (bs : List Byte) (x : InParcel) : Bool :=
  x.link = l && hdrClass x.hdr = 3 && hdrKind x.hdr = 1 && x.bytes = bs

/-- A management parcel sent. See 08 R362. -/
def State.sendMgmt (s : State) (l what lane p slot : Nat) : State :=
  s.sendUnsch l 3 1 0xFF s.cfg.chip 0 (mgmtBytes what lane p slot)

/-- LANE_DEGRADED (R395): more corrected symbols than the threshold in a window of 1,048,576 frames. Where the spare is
unused, the receiver asks for it. -/
def execLaneDegraded (p : Fin 30) (lane : Fin 9) (s : State) : Out :=
  let l := s.laneLink p.val lane.val
  let x := s.port p.val
  if !s.hasPort p.val then .fault .absentUnit
  else
    let win := (SMap.get [] x.laneWin lane.val).filter (fun t => (s.link l).rxCount < t + 1048576)
    if (s.link l).phase ≠ .up || win.length ≤ 256 * (s.link l).reg.laneThr.toNat || x.laneDegr.getLsbD lane.val then .next s
    else
      let s1 := s.updPort p.val (fun x => { x with laneDegr := x.laneDegr ||| BitVec.ofNat 9 (2 ^ lane.val) })
      .next (if s.spareServes p.val lane.val false && x.sub.isNone && x.subst.isNone then
          (s1.updPort p.val (fun x => { x with subst := some (lane.val, s.now) })).sendMgmt l 1 lane.val p.val 0
        else s1)

/-- SPARE_REQUEST (R396): the transmitter sends the lane's symbols on the spare as well, from its next frame slot on. -/
def execSpareRequest (p : Fin 30) (lane : Fin 9) (s : State) : Out :=
  let l := s.laneLink p.val lane.val
  if !s.hasPort p.val then .fault .absentUnit
  else
    let s1 := s.takeIn (isMgmt l (mgmtBytes 1 lane.val p.val 0))
    let x := s1.port p.val
    .next (if (s1.link l).phase = .up && s1.spareServes p.val lane.val true && x.subTx.isNone && x.mirror.isNone then
        (s1.updPort p.val (fun x => { x with mirror := some (lane.val, s1.now) })).sendMgmt l 2 lane.val p.val (s1.link l).slot
      else s1)

/-- MIRROR_NOTICE (R396): the receiver takes the lane's symbols from the spare and says so. -/
def execMirrorNotice (p : Fin 30) (lane : Fin 9) (slot : Nat) (s : State) : Out :=
  let l := s.laneLink p.val lane.val
  if !s.hasPort p.val then .fault .absentUnit
  else
    let s1 := s.takeIn (isMgmt l (mgmtBytes 2 lane.val p.val slot))
    .next (if (s1.link l).phase = .up && (s1.port p.val).subst.map (fun x => x.1) = some lane.val then
        (s1.updPort p.val (fun x => { x with sub := some lane.val, subst := none, spares := satInc x.spares })).sendMgmt l 3
          lane.val p.val 0
      else s1)

/-- SWITCH_NOTICE (R396): the transmitter stops driving the replaced lane. -/
def execSwitchNotice (p : Fin 30) (lane : Fin 9) (s : State) : Out :=
  let l := s.laneLink p.val lane.val
  if !s.hasPort p.val then .fault .absentUnit
  else
    let s1 := s.takeIn (isMgmt l (mgmtBytes 3 lane.val p.val 0))
    .next (if (s1.port p.val).mirror.map (fun x => x.1) = some lane.val then
        s1.updPort p.val (fun x => { x with subTx := some lane.val, mirror := none, spares := satInc x.spares })
      else s1)

/-- SPARE_SUBSTITUTION_TIMEOUT (R396): 65,536 treads after it began a substitution is abandoned. -/
def execSpareSubstitutionTimeout (p : Fin 30) (s : State) : Out :=
  if !s.hasPort p.val then .fault .absentUnit
  else
    let x := s.port p.val
    match x.subst, x.mirror with
    | none, none => .next s
    | a, b =>
      let t := (match a, b with
        | some (_, t), some (_, u) => min t u
        | some (_, t), none => t
        | none, some (_, u) => u
        | none, none => 0) + 65536
      let s1 := s.waitUntil t
      let old := fun (y : Option (Nat × Nat)) => match y with
        | some (_, u) => decide (u + 65536 ≤ s1.now)
        | none => false
      .next (s1.updPort p.val (fun x => { x with
        subst := if old x.subst then none else x.subst, mirror := if old x.mirror then none else x.mirror }))

/-- LANE_LOSS_OF_LOCK (R395, R398): the lane is failed, and a fast retrain starts. -/
def execLaneLossOfLock (p : Fin 30) (lane : Fin 9) (s : State) : Out :=
  let l := s.laneLink p.val lane.val
  if !s.hasPort p.val then .fault .absentUnit
  else if (s.link l).phase = .down || (s.port p.val).laneFail.getLsbD lane.val then .next s
  else .next ((s.updPort p.val (fun x => { x with laneFail := x.laneFail ||| BitVec.ofNat 9 (2 ^ lane.val) })).startRetrain l)

/-- UNCORRECTABLE_FRAME_BURST (R395): 4 uncorrectable frames within 16 slots; the lane that the decoder's errors point to is
failed, and the link retrains. -/
def execUncorrectableFrameBurst (p : Fin 30) (h : Fin 2) (lane : Option (Fin 9)) (s : State) : Out :=
  let l := 2 * s.lowPort p.val + h.val
  if !s.hasLink p.val h.val then .fault .absentUnit
  else
    let x := s.link l
    let us := x.ueSlots.filter (fun t => x.rxCount < t + 16)
    if x.phase ≠ .up || us.length < 4 then .next s
    else
      let s1 := s.updLink l (fun x => { x with ueSlots := [] })
      let s2 := match lane with
        | none => s1
        | some i => s1.updPort p.val (fun x => { x with laneFail := x.laneFail ||| BitVec.ofNat 9 (2 ^ i.val) })
      .next (s2.startRetrain l)

/-- RETRAIN_ORDERED_SETS (R398): this end stops sending frames and joins the retrain. -/
def execRetrainOrderedSets (p : Fin 30) (h : Fin 2) (s : State) : Out :=
  let l := 2 * s.lowPort p.val + h.val
  if !s.hasLink p.val h.val then .fault .absentUnit else .next (s.startRetrain l)

/-! ### The end of a training (09 R370, R388, R399, R400) -/

/-- What a training finds on one port: its lanes, and of those the bits of the report from bit `o` that are healthy. -/
def reportLanes (f : PortForm) (h o : Nat) (ok : BitVec 16) : List (Nat × Bool) :=
  (laneRange f h).zipIdx.map (fun (i, k) => (i, ok.getLsbD (o + k)))

/-- The lane that the spare replaces after a training: the one it replaces already, else the first failed lane. -/
def pickSub (serves : Nat → Bool) (old : Option Nat) (ls : List (Nat × Bool)) : Option Nat :=
  match old with
  | some i => if serves i then some i else none
  | none => (ls.find? (fun x => !x.2 && serves x.1)).map (fun x => x.1)

/-- Lanes of one direction that can carry symbols. See 09 R397. -/
def liveLanes (sub : Option Nat) (ls : List (Nat × Bool)) : Nat := (ls.filter (fun x => x.2 || sub = some x.1)).length

/-- The largest power of two up to 8 that is at most `n` and at most `m`. -/
def widthOf (m n : Nat) : Nat :=
  if 8 ≤ n ∧ 8 ≤ m then 8 else if 4 ≤ n ∧ 4 ≤ m then 4 else if 2 ≤ n ∧ 2 ≤ m then 2 else if 1 ≤ n then 1 else 0

/-- Failed lanes after a report of lanes `ls`, and of the spare where the link owns it. -/
def lanesAfter (old : BitVec 9) (ls : List (Nat × Bool)) (owns spare : Bool) : BitVec 9 :=
  let ls := if owns then ls ++ [(8, spare)] else ls
  ls.foldl (fun m y => if y.2 then m &&& ~~~(BitVec.ofNat 9 (2 ^ y.1)) else m ||| BitVec.ofNat 9 (2 ^ y.1)) old

/-- Failed lanes and spare use of one port after a training; `k` is its place in the pair. A changed spare_en applies from here (07
R321). Log 51 (DEDUCED). -/
def State.trainPort (s : State) (p h k : Nat) (r : TrainReport) : State :=
  let f := s.form p
  let rx := reportLanes f h (8 * k) r.rxOk
  let tx := reportLanes f h (8 * k) r.txOk
  s.updPort p (fun x =>
    let en := x.sparePend.getD x.spareEn
    let owns := h = 0
    let serves := fun (ok : Bool) (i : Nat) => en && ok && owns && (f != .bif || i < 4)
    { x with
      spareEn := en, sparePend := none, laneFail := lanesAfter x.laneFail rx owns (r.spareRx.getLsbD k)
      laneFailTx := lanesAfter x.laneFailTx tx owns (r.spareTx.getLsbD k)
      laneDegr := x.laneDegr &&& ~~~(rx.foldl (fun m y => m ||| BitVec.ofNat 9 (2 ^ y.1)) 0)
      sub := if owns then pickSub (serves (r.spareRx.getLsbD k)) x.sub rx else x.sub
      subTx := if owns then pickSub (serves (r.spareTx.getLsbD k)) x.subTx tx else x.subTx })

/-- The width that the lanes of a port allow in both directions. -/
def State.portWidth (s : State) (p h o : Nat) (r : TrainReport) : Nat :=
  let f := s.form p
  let x := s.port p
  widthOf (laneRange f h).length
    (min (liveLanes x.sub (reportLanes f h o r.rxOk)) (liveLanes x.subTx (reportLanes f h o r.txOk)))

/-- The recovery mode of a link (09 R388): true for replay from request. -/
def replayMode (role : Nat) (delay : Nat) : Bool := if role ≤ 4 then false else if role ≤ 12 then true else 320 < delay

/-- This end leads a training (09 R399). -/
def State.leads (s : State) (l : Nat) (r : TrainReport) : Bool :=
  let p := l / 2
  let own := s.cfg.chip.toNat
  let far := r.farChip.toNat
  let a := p / 6 * 256 + p % 6
  let b := r.farArcade.toNat * 256 + r.farIndex.toNat
  own < far || (own = far && (a < b || (a = b && r.draw)))

/-- TRAINING_COMPLETE (R400): lane map, width, mode and leader; the ends resume at the TREAD that the leader names. A far end
of another version completes no training (R370). -/
def execTrainingComplete (p : Fin 30) (h : Fin 2) (r : TrainReport) (s : State) : Out :=
  let q := s.lowPort p.val
  let l := 2 * q + h.val
  if !s.hasLink p.val h.val then .fault .absentUnit
  else
    let x := s.link l
    if x.phase ≠ .full && x.phase ≠ .fast then .next s
    else if r.version ≠ 2 then
      .next (s.updLink l (fun x => { x with nbr := { x.nbr with version := r.version, state := 4 } }))
    else
      let bond := s.form q = .bond
      let s1 := s.trainPort q h.val 0 r
      let s2 := if bond then s1.trainPort (q + 1) 0 1 r else s1
      let w0 := s2.portWidth q h.val 0 r
      let w := if bond then 2 * min w0 (s2.portWidth (q + 1) 0 8 r) else w0
      let f := s2.form q
      if w < leastWidth f || (!x.reg.autowidth && w < fullWidth f) then
        .next ((s2.updLink l (fun x => { x with reg := { x.reg with leader := s.leads l r } })).startFull l)
      else
        .next (s2.updLink l (fun x => { x with
          phase := .waitResume, width := w, resumeAt := r.resume.toNat, farFresh := r.farFresh
          reg := { x.reg with leader := s.leads l r, mode := replayMode (s.role q h.val) r.delay.toNat }
          nbr := { x.nbr with width := BitVec.ofNat 4 (if bond then w / 2 else w) } }))

/-! ### The resume (09 R401) -/

/-- The current credit values of a link, in four frames each. -/
def State.creditValues (s : State) (l : Nat) : List CredItem :=
  let sd := (s.link l).side
  let un : List CredItem := [{ cls := 2, ctx := 0, value := sd.cFreed, left := 4 }, { cls := 3, ctx := 0, value := sd.dFreed, left := 4 },
    { cls := 4, ctx := 0, value := sd.mFreed, left := 4 }]
  un ++ (s.linkCtxs l).flatMap (fun c =>
    [{ cls := 0, ctx := c % 64, value := (s.ctx c).sFreed, left := 4 }, { cls := 1, ctx := c % 64, value := (s.ctx c).cFreed, left := 4 }])

/-- A session that both ends kept: the buffer from the far end's N is sent again, the reorder window is dropped, the credit values that
wait go on and the present ones are sent again, and L is measured again (09 R381, R401). -/
def State.resumeKept (s : State) (l : Nat) (farN : BitVec 12) : State :=
  let creds := s.creditValues l
  s.updLink l (fun x =>
    let y := x.takeAck farN
    { y with
      reg := { y.reg with fresh := false }
      sq := { y.sq with window := [], reqs := [], replayQ := y.sq.rbuf.map (fun f => f.seq), replaying := !y.sq.rbuf.isEmpty }
      side := { y.side with creds := y.side.creds ++ creds, echo := none, markDue := false, markOut := none, lastMark := s.now, trips := [], delayL := none } })

/-- Bays of unscheduled parcels that were on their way in are freed. -/
def State.freeAsm (s : State) (l : Nat) : State :=
  s.each ((s.link l).sq.asm_.filter (fun a => 64 ≤ a.chan && !a.drop && a.next < a.frames)) (fun s a =>
    s.updBay (a.bayP * 128 + a.bay) (fun _ => {}))

/-- A fresh session: sequence number 0, an empty buffer, and the credit counts of a new link. What waits to be sent waits on;
parcels that had begun begin again. -/
def State.resumeFresh (s : State) (l : Nat) : State :=
  let s1 := (s.freeAsm l).linkDead l
  let again := fun (q : List TxParcel) => q.map (fun x => { x with next := 0 })
  let s2 := s1.updLink l (fun x => { x with
    reg := { x.reg with fresh := true }
    sq := { ctlq := again x.sq.ctlq, dq := again x.sq.dq, mq := again x.sq.mq }
    side := { marks := x.side.marks, lastMark := s.now }
    anns := [] })
  s2.each (s2.linkCtxs l) (fun s c => s.updCtx c (fun x => { x with
    sCred := 0, cCred := 0, sHeld := 0, cHeld := 0, sFreed := 0, cFreed := 0, far := none }))

/-- The frames that a pause of a link keeps: each waits from the slot in which it would have left (01 R25). -/
def State.missPause (s : State) (l : Nat) (x : Link) : State :=
  s.each (s.linkCtxs l) (fun s c => s.updCtx c (fun y => { y with jobs := match y.jobs with
    | [] => []
    | j :: js => { j with waiting := j.waiting.or (x.firstSlot y.wheel j.at_), slots := 0 } :: js }))

/-- LINK_RESUME (R401): at the resume TREAD the link is up. -/
def execLinkResume (p : Fin 30) (h : Fin 2) (farN : BitVec 12) (s : State) : Out :=
  let l := 2 * s.lowPort p.val + h.val
  if !s.hasLink p.val h.val then .fault .absentUnit
  else
    let x := s.link l
    if x.phase ≠ .waitResume then .next s
    else
      let s1 := s.waitUntil x.resumeAt
      if s1.now < x.resumeAt then .next s1
      else
        let s2 := s1.updLink l (fun x => { (x.endPause s1.now) with
          phase := .up, slot := 0, slotAt := s1.now, slotFrac := 0, ueSlots := [], bcnSent := false
          bcnHeard := s1.now, nbr := { x.nbr with state := 2 } })
        .next (if x.kept && !x.farFresh then (s2.missPause l x).resumeKept l farN else s2.resumeFresh l)

/-- FAST_RETRAIN_TIMEOUT (R402): a fast retrain not complete within 65,536 treads. -/
def execFastRetrainTimeout (p : Fin 30) (h : Fin 2) (s : State) : Out :=
  let l := 2 * s.lowPort p.val + h.val
  if !s.hasLink p.val h.val then .fault .absentUnit
  else
    let x := s.link l
    match x.pauseAt with
    | none => .next s
    | some t =>
      if x.phase ≠ .fast && x.phase ≠ .waitResume then .next s
      else
        let s1 := s.waitUntil (t + 65536)
        .next (if s1.now < t + 65536 then s1 else s1.startFull l)

/-- LOSS_OF_SIGNAL (R402): on every lane of a direction. -/
def execLossOfSignal (p : Fin 30) (h : Fin 2) (s : State) : Out :=
  let l := 2 * s.lowPort p.val + h.val
  if !s.hasLink p.val h.val then .fault .absentUnit
  else if (s.link l).phase = .down || (s.link l).phase = .full then .next s
  else .next (s.startFull l)

/-! ### ARC_LINK_CFG (09 R408, 15 R576) -/

/-- The BAR0 offset of ARC_LINK_CFG[p][h] (15 Table 15.4). -/
def linkCfgOff (p h : Nat) : Word := BitVec.ofNat 32 (0x400000 + p * 0x10000 + 0x100 * (h + 1) + 8)

/-- An admitted slice uses the link. -/
def State.linkInUse (s : State) (l : Nat) : Bool :=
  s.admitted.any (fun k => (s.linksOf (s.sl k).id).contains (l / 2, l % 2))

/-- A write of ARC_LINK_CFG; none where it is refused. A reserved value leaves lane_thr as it is (00 R12). -/
def State.wrLinkCfg (s : State) (l : Nat) (v : Word) : Option State :=
  let r := (s.link l).reg
  let thr := if v.extractLsb' 8 8 = 0 then r.laneThr else v.extractLsb' 8 8
  let r1 : LinkReg := { r with rtoExtra := v.extractLsb' 16 8, laneThr := thr, autowidth := v.getLsbD 1 }
  if r1 ≠ r && s.linkInUse l then none
  else
    let s1 := s.updLink l (fun x => { x with reg := r1 })
    some (if v.getLsbD 0 then s1.startRetrain l else s1)

/-- A register write by BAR0: a refused one writes a fault record of cause 0x0117 (15 R584). -/
def State.barWrite (s : State) (off v : Word) (r : Option State) : State := r.getD (s.refuseWrite off v)

/-- LINK_RETRAIN_WRITE (R408). The register of a link that is not there, or of the higher-numbered port of a bonded pair, is a hole: the
write is ignored (15 R571, R579). -/
def execLinkRetrainWrite (p : Fin 30) (h : Fin 2) (value : Word) (s : State) : Out :=
  if !s.hasLink p.val h.val || s.lowPort p.val ≠ p.val then .next s
  else .next (s.barWrite (linkCfgOff p.val h.val) value (s.wrLinkCfg (2 * p.val + h.val) value))

end Sys2Proof.Machine
end

