-- ==== Sys2Proof/Machine/Foyer.lean ====
section
/-! DEFINITION. The foyer (11 R438 to R482): polls and queues, descriptors, DMA channels, and storage transfers.
-/
namespace Sys2Proof.Machine

/-! ### Queues and polls (11 R443 to R448, R456) -/

/-- A doorbell word in error (R447): its tail lies past the ring, or its head outside the entries written. -/
def Queue.badWord (q : Queue) (w : Word64) : Bool :=
  2 ^ q.sqLog.toNat < (w.extractLsb' 0 16 - q.sqHead).toNat || (q.cqW - q.cqHead).toNat < (w.extractLsb' 16 16 - q.cqHead).toNat

/-- A queue's doorbell word taken in a poll: descriptors are read from the foyer's head to sq_tail, no more than have a free
completion entry beyond the 8 kept for notices. A word that has not changed causes nothing. See 11 R444. -/
def State.pollQueue (s : State) (n : Nat) (w : Word64) : State :=
  let q := s.queue n
  if !q.en || q.err || w = q.lastDb then s
  else if q.badWord w then
    let s1 := s.updQueue n (fun q => { q with err := true, read := 0, lastDb := w })
    if n = 0 then s1 else s1.notice 0x09 (BitVec.ofNat 64 n) [] none
  else
    s.updQueue n (fun q =>
      let q1 := { q with cqHead := w.extractLsb' 16 16, lastDb := w }
      let m := min (w.extractLsb' 0 16 - q.sqHead).toNat (q1.free - 8 - (q.read + q.doing))
      { q1 with sqHead := q1.sqHead + BitVec.ofNat 16 m, read := q1.read + m })

/-- FOYER_POLL (R446): the doorbell block, one word for each queue, FOY_POLL.interval × 250 ns after the last poll. -/
def execFoyerPoll (words : List Word64) (s : State) : Out :=
  if !(List.range 16).any (fun n => (s.queue n).en) then .next s
  else
    let s1 := s.waitUntil s.foyer.pollAt
    let s2 := { s1 with foyer := { s1.foyer with pollAt := s1.now + 400 * s1.foyer.poll.toNat } }
    .next (s2.each (words.zipIdx.take 16) (fun s (w, n) => s.pollQueue n w))

/-- A field that Table 11.20 reserves keeps its value (00 R12). -/
def ringLog (old v : BitVec 4) : BitVec 4 := if v.toNat < 4 then old else v

/-- A write of FOY_Q_CFG[n]; none where it is refused (R448, 15 R576). -/
def State.wrQueueCfg (s : State) (n : Nat) (v : Word) : Option State :=
  let q := s.queue n
  let q1 : Queue := { q with cqRo := v.getLsbD 30, sqLog := ringLog q.sqLog (v.extractLsb' 24 4)
                             cqLog := ringLog q.cqLog (v.extractLsb' 20 4), slice := v.extractLsb' 0 8 }
  if q1 ≠ q && (q.en || !q.idle) then none
  else
    let en := v.getLsbD 31
    some (s.updQueue n (fun _ =>
      if en && !q.en then { q1 with en, idle := false, sqHead := 0, cqHead := 0, cqW := 0, lastDb := 0, read := if q.idle then 0 else q.read }
      else if !en then { q1 with en, err := false } else q1))

/-- The BAR0 offset of FOY_Q_CFG[n] (15 Table 15.2). -/
def queueCfgOff (n : Nat) : Word := BitVec.ofNat 32 (0x10100 + 0x40 * n)

/-- QUEUE_ENABLE_WRITE (R448). -/
def execQueueEnableWrite (q : Fin 16) (value : Word) (s : State) : Out :=
  .next (s.barWrite (queueCfgOff q.val) value (s.wrQueueCfg q.val value))

/-- QUEUE_IDLE (R448): a disabled queue whose descriptors have completed. -/
def execQueueIdle (q : Fin 16) (s : State) : Out :=
  let x := s.queue q.val
  .next (if !x.en && x.read = 0 && x.doing = 0 then s.updQueue q.val (fun x => { x with idle := true }) else s)

/-! ### Descriptors (11 R449 to R452) -/

/-- A descriptor of this header may start: the foyer has read one, and with fence set every earlier one has completed. Log 52 (DEDUCED). -/
def State.mayStart (s : State) (h : DescHdr) : Bool :=
  let q := s.queue h.queue.val
  0 < q.read && !q.err && (!h.flags.getLsbD 1 || q.doing = 0)

/-- An earlier descriptor of the queue that the steward carries out waits for its ordinal (R452). -/
def State.stewardBusy (s : State) (h : DescHdr) : Bool :=
  s.slices.any (fun x => x.2.evicts.any (fun e => e.hdr.queue = h.queue) || x.2.writes.any (fun e => e.hdr.queue = h.queue))

/-- The header holds a reserved value. -/
def descBad (h : DescHdr) : Bool := h.res || 4 ≤ h.flags.toNat

/-- An opcode that Table 11.6 reserves. -/
def opReserved (o : Byte) : Bool :=
  (5 ≤ o.toNat && o.toNat ≤ 0x0F) || (0x13 ≤ o.toNat && o.toNat ≤ 0x1F) || 0x24 ≤ o.toNat

/-- A descriptor carried out: one that may not start yet waits; one with a reserved opcode, or another reserved value in its header, is
refused (11 R450, 00 R12). -/
def withDesc (h : DescHdr) (op : Byte) (f : State → State) (s : State) (ord : Word := 0) (chan : Byte := 0xFF) : Out :=
  if !s.mayStart h then .next s
  else
    let s1 := s.updQueue h.queue.val (fun q => { q with read := q.read - 1, doing := q.doing + 1 })
    .next (match h.badOp.filter opReserved with
      | some o => s1.refuse h o
      | none => if descBad h then s1.refuse h op ord chan else f s1)

/-- The same for the steward's descriptors, one at a time. -/
def withSteward (h : DescHdr) (op : Byte) (f : State → State) (s : State) : Out :=
  if s.stewardBusy h then .next s else withDesc h op f s

/-- NOP (R451). -/
def execNop (hdr : DescHdr) (s : State) : Out := withSteward hdr 0x00 (fun s => s.finish hdr 0x00 0 0 0) s

/-- The queue's own slice, none for the operator queue. -/
def State.queueSlice (s : State) (h : DescHdr) : Option (BitVec 8) := if h.queue.val = 0 then none else some (s.queue h.queue.val).slice

/-- The queue may act for a slice: the operator queue for every one, a tenant queue for its own (R442, Table 11.20). -/
def State.actsFor (s : State) (h : DescHdr) (k : BitVec 8) : Bool :=
  match s.queueSlice h with
  | none => true
  | some q => q = k && q ≠ 0xFF

/-! ### Transfers (11 R468 to R480) -/

/-- What refuses a DMA or storage descriptor (R450, R468, Table 11.12): a reserved length or flight bits, a token flight that
is not resident, or a slice that is not the queue's own. -/
def State.xferRefused (s : State) (h : DescHdr) (d : DmaDesc) : Bool :=
  d.len = 0 || 0x80000000 < d.len.toNat
    || (d.tokEn && (match s.flight d.tokFlight.toNat with
        | none => true
        | some f => !s.actsFor h f.slice))
    || (d.gateSlice ≠ 0xFF && !s.actsFor h d.gateSlice)
    || (d.crcMode ≠ 3 && d.expected ≠ 0)

/-- Bytes that a transfer covers at its destination: 8 more in append mode (R469, Table 11.13). -/
def xferSpan (d : DmaDesc) : Nat := d.len.toNat + (if d.crcMode = 2 then 8 else 0)

/-- The first byte of a part-side range that lies in no enabled window of a tenant queue (R442, R469). Log 85 (DEDUCED). -/
def Queue.outside (q : Queue) (off len : Nat) : Option Nat :=
  let ends := ((List.range 4).filter (fun w => SMap.get false q.winEn w)).map (fun w =>
    let lo := (SMap.get 0 q.winBase w).toNat * 2 ^ 21
    (lo, lo + (SMap.get 1 q.winLen w).toNat * 2 ^ 21))
  match ends.find? (fun w => w.1 ≤ off && off + len ≤ w.2) with
  | some _ => none
  | none =>
    match ends.find? (fun w => w.1 ≤ off && off < w.2) with
    | some w => some w.2
    | none => some off

/-- Why the part-side range of a transfer may not be used, with the detail of its completion (R469, 06 R247, R274). -/
def State.xferBad (s : State) (h : DescHdr) (d : DmaDesc) (write : Bool) : Option (BitVec 16 × Word64) :=
  let n := if write then xferSpan d else d.len.toNat
  let win := if h.queue.val = 0 then none else (s.queue h.queue.val).outside d.off.toNat n
  match win with
  | some a => some (0x0002, BitVec.ofNat 64 a)
  | none => s.rangeBad d.off.toNat n write

/-- The gate landing of a transfer has ended, or it has no gate (R475). -/
def State.gateOpen (s : State) (d : DmaDesc) : Bool :=
  let x := s.sl d.gateSlice.toNat
  d.gateSlice = 0xFF ||
    (x.admitted && x.tel.anyEnded && (x.tel.lastOrd = d.gateOrd || ordBefore d.gateOrd x.tel.lastOrd))

/-- The commit landing at which a commit-only transfer is aborted: the latest at or before the gate ordinal (R475). -/
def State.gateAbort (s : State) (d : DmaDesc) : Option Word :=
  if d.gateSlice = 0xFF || !d.commitOnly then none
  else
    match (((s.sl d.gateSlice.toNat).err.commits.filter (fun c => c.1 = d.gateOrd || ordBefore c.1 d.gateOrd)).getLast?) with
    | some (o, true) => some o
    | _ => none

/-- The CRC-64 of a transfer's bytes, where its mode asks for one (R474). -/
def xferCrc (d : DmaDesc) (bs : List Byte) : Option Word64 := if d.crcMode = 0 then none else some (crc64 bs)

/-- The bytes written at the destination: in append mode the CRC follows. -/
def xferBytes (d : DmaDesc) (bs : List Byte) : List Byte :=
  if d.crcMode = 2 then bs ++ bvBytes 8 (crc64 bs) else bs

/-- Status and detail of a transfer that has moved its bytes: HBM uncorrectable, poisoned source, CRC mismatch, success; which of
several errors is free. Log 47 (DESIGN CHOICE). -/
def xferResult (now : Nat) (d : DmaDesc) (bad old : Option Nat) (crc : Option Word64) :
    BitVec 16 × Word64 :=
  let r : List (BitVec 16 × Word64) := (bad.toList.map (fun a => (0x0005, BitVec.ofNat 64 a)))
    ++ old.toList.map (fun p => (0x0004, BitVec.ofNat 64 p))
    ++ (if d.crcMode = 3 && crc ≠ some d.expected then [(0x0007, d.expected)] else [])
  (oneOf [47, now, d.chan.toNat, d.off.toNat] r).getD (0x0000, d.len.zeroExtend 64)

/-- The data of a transfer moved its way (status 0, 4, 5 or 7). -/
def moved (st : BitVec 16) : Bool := st = 0 || st = 4 || st = 5 || st = 7

/-- The slice of the flight that a transfer's token names, when the descriptor is carried out (03 R111). -/
def State.tokenSlice (s : State) (d : DmaDesc) : Byte :=
  if d.tokEn then ((s.flight d.tokFlight.toNat).map (fun f => f.slice)).getD 0xFF else 0xFF

/-- The token of a transfer raised, once its last write has been made (R476); `k0` is the slice that its flight had when the
descriptor was carried out. Log 54 (DEDUCED). -/
def State.raiseToken (s : State) (k0 : Byte) (d : DmaDesc) : State :=
  if d.tokEn then
    let k := match s.flight d.tokFlight.toNat with
      | some f => f.slice
      | none => k0
    { s with stair := { s.stair with transit := s.stair.transit ++
        [{ branch := false, flight := d.tokFlight.toNat, ord := d.tokOrd, value := 0, slice := k }] } }
  else s

/-! ### Channels (11 R467, R472, R473) -/

/-- The landing from which scheduled work sees what a transfer writes (R477). -/
def seenFrom (k : Byte) (d : DmaDesc) : Option (Nat × Word) := if d.tokEn then some (k.toNat, d.tokOrd) else none

/-- The active transfer of a channel starts, if nothing holds it back, or its status says why it moves nothing. Its bytes move when
DMA_TRANSFER_COMPLETE ends it; the part's bytes that it writes are not defined for scheduled operations from now on (R478). Log 53
(DESIGN CHOICE). -/
def State.startXfer (s : State) (c : Nat) : State :=
  match (s.chan c).act with
  | none => s
  | some j =>
    if j.started || (s.chan c).halt || !s.gateOpen j.d then s
    else
      let put := fun (s : State) (j : DmaJob) => s.updChan c (fun x => { x with act := some j })
      let j0 := { j with gated := false, started := true, tries := (s.chan c).retry }
      match s.gateAbort j.d with
      | some o => put s { j0 with status := 0x0008, detail := o.zeroExtend 64 }
      | none =>
        match s.xferBad j.hdr j.d (j.op = 1) with
        | some (st, d) => put s { j0 with status := st, detail := d }
        | none =>
          let s1 := if j.op = 1 then s.hideRange j.d.off.toNat (xferSpan j.d) (seenFrom j.tokSlice j.d) else s
          put s1 { j0 with detail := j.d.len.zeroExtend 64, hid := if j.op = 1 then s1.freeCtr else 0 }

/-- The bytes of a started transfer move; the answer holds its status, detail and CRC. -/
def State.moveXfer (s : State) (j : DmaJob) : State × DmaJob :=
  if j.op = 1 then
    let bs := j.data.take j.d.len.toNat
    let crc := xferCrc j.d bs
    let r := xferResult s.now j.d none none crc
    (s.partWrite j.d.off.toNat (xferBytes j.d bs) (fun _ _ => false),
      { j with status := r.1, detail := r.2, crc, done := j.d.len })
  else
    let x := (s.arise j.ups).partRead j.d.off.toNat j.d.len.toNat
    let crc := xferCrc j.d x.bytes
    let r := xferResult x.s.now j.d x.bad x.old crc
    (x.s.hostWrite j.d.addr.toNat (xferBytes j.d x.bytes), { j with status := r.1, detail := r.2, crc, done := j.d.len })

/-- The shadow set becomes active, and the next descriptor of the channel takes its place (R467). -/
def Chan.promote (x : Chan) : Chan := { x with act := x.shd, shd := x.wait.head?, wait := x.wait.drop 1 }

/-- A channel whose active set is empty goes on with the next transfer. -/
def State.nextXfer (s : State) (c : Nat) : State :=
  if (s.chan c).act.isNone && !(s.chan c).halt then (s.updChan c Chan.promote).startXfer c else s

/-- A descriptor put to its channel. -/
def State.queueXfer (s : State) (c : Nat) (j : DmaJob) : State :=
  (s.updChan c (fun x =>
    if x.act.isNone && !x.halt then { x with act := some j }
    else if x.shd.isNone then { x with shd := some j } else { x with wait := x.wait ++ [j] })).startXfer c

/-- The queue may use a channel (R442, R468). -/
def State.mayUse (s : State) (h : DescHdr) (c : BitVec 8) : Bool :=
  c.toNat < 16 && (h.queue.val = 0 || (s.queue h.queue.val).chm.getLsbD c.toNat)

/-- A DMA descriptor. -/
def State.dma (s : State) (op : Byte) (h : DescHdr) (d : DmaDesc) (data : List Byte) (ups : List Upset) : State :=
  if s.xferRefused h d || !s.mayUse h d.chan then s.refuse h op (xferOrd d) d.chan
  else
    s.queueXfer d.chan.toNat
      { op, hdr := h, d, data, ups, gated := d.gateSlice ≠ 0xFF, started := false, done := 0, retries := 0, status := 0
        detail := 0, crc := none, tokSlice := s.tokenSlice d }

/-- DMA_IN (R470): `data` is what the foyer reads from host memory. -/
def execDmaIn (hdr : DescHdr) (d : DmaDesc) (data : List Byte) (s : State) : Out :=
  withDesc hdr 0x01 (fun s => s.dma 0x01 hdr d data []) s (xferOrd d) d.chan

/-- DMA_OUT (R470). -/
def execDmaOut (hdr : DescHdr) (d : DmaDesc) (ups : List Upset) (s : State) : Out :=
  withDesc hdr 0x02 (fun s => s.dma 0x02 hdr d [] ups) s (xferOrd d) d.chan

/-- The end of a channel's transfer `j`: what it has written shows, or waits for the landing of its token, the token, the completion entry, and the
next transfer of the channel. -/
def State.endXfer (s : State) (c : Nat) (j : DmaJob) : State :=
  let s0 := if j.d.tokEn && moved j.status then s else s.showRange j.hid
  let s1 := if moved j.status then s0.raiseToken j.tokSlice j.d else s0
  let s2 := s1.updChan c (fun x => { x with act := none, status := j.status })
  (s2.finishXfer j.hdr j.op j.d j.status j.detail j.crc).nextXfer c

/-- DMA_TRANSFER_COMPLETE (R454): the last bytes move, in a frame and a tread that the schedule leaves free (R470); the token, the
completion entry, and the next transfer of the channel follow. -/
def execDmaTransferComplete (c : Fin 16) (s : State) : Out :=
  match (s.chan c.val).act with
  | none => .next s
  | some j =>
    if !j.started then .next s
    else if !moved j.status then .next (s.endXfer c.val j)
    else
      match s.xferBad j.hdr j.d (j.op = 1) with
      | some (st, d) => .next (s.endXfer c.val { j with status := st, detail := d })
      | none =>
        match s.unschedXfer j.d.off.toNat (if j.op = 1 then xferSpan j.d else j.d.len.toNat) (j.op = 1) with
        | none => .next s
        | some s0 =>
          let r := s0.moveXfer j
          .next (r.1.endXfer c.val r.2)

/-- The destination of a transfer that was cut short is not defined (R441). -/
def State.spoil (s : State) (op : Byte) (d : DmaDesc) : State :=
  if op = 1 || op = 3 then s.partUndefine d.off.toNat (xferSpan d)
  else if op = 2 then
    { s with hostMem := cellsOutside d.addr.toNat (d.addr.toNat + xferSpan d) s.hostMem
             hostUndef := (d.addr.toNat, d.addr.toNat + xferSpan d, s.freeCtr + 1)
               :: undefCut d.addr.toNat (d.addr.toNat + xferSpan d) s.hostUndef
             freeCtr := s.freeCtr + 1 }
  else s

/-- DMA_READ_FAILURE (R472): the read is made again, as often as DMA_CH_CFG.retry said when the transfer started (R482); then the channel halts. -/
def execDmaReadFailure (c : Fin 16) (addr : Word64) (s : State) : Out :=
  let x := s.chan c.val
  match x.act with
  | none => .next s
  | some j =>
    if !j.started || j.op ≠ 1 || !moved j.status then .next s
    else if j.retries.toNat < j.tries.toNat then
      .next (s.updChan c.val (fun x => { x with act := some { j with retries := j.retries + 1 } }))
    else
      let s1 := ((s.spoil j.op j.d).showRange j.hid).updChan c.val (fun x => { x with act := none, halt := true, status := 0x0006 })
      .next (s1.finishXfer j.hdr j.op j.d 0x0006 addr none)

/-- A halted channel resumes with the descriptor after the failed one (R473). -/
def State.resumeChan (s : State) (c : Nat) : State :=
  if (s.chan c).halt then (s.updChan c (fun x => { x with halt := false })).nextXfer c else s

/-- CH_RESUME (R473). -/
def execChResume (hdr : DescHdr) (chan : BitVec 8) (s : State) : Out :=
  withSteward hdr 0x23 (fun s =>
    if s.mayUse hdr chan then (s.resumeChan chan.toNat).finish hdr 0x23 0 0 0 else s.refuse hdr 0x23) s

/-- CHANNEL_HALT_WRITE (R473): DMA_CH_STAT.halt is cleared by writing 1. -/
def execChannelHaltWrite (c : Fin 16) (value : Word) (s : State) : Out :=
  .next (if value.getLsbD 31 then s.resumeChan c.val else s)

/-! ### Storage (11 R479; 08 R360, R361) -/

/-- The parcels of a transfer of `n` bytes: place and length of each. -/
def storChunks (n : Nat) : List (Nat × Nat) := (List.range ((n + 8175) / 8176)).map (fun i => (8176 * i, min 8176 (n - 8176 * i)))

/-- A class D parcel of this part's own put to a storage port's queue. -/
def State.sendStor (s : State) (j : StorJob) (kind at_ len : Nat) (map : BitVec 16) (data : List Byte) (seq : Word) : State :=
  let a : StorageParcel := { addr := j.d.addr + BitVec.ofNat 64 at_, tag := j.hdr.tag, len := BitVec.ofNat 16 len, status := 0, data }
  let bs := storageBytes a
  let x : TxParcel := { chan := 65, hdr := mkHdr 0xFF 2 kind bs.length s.cfg.chip map seq 0, bytes := bs, next := 0 }
  s.updLink (2 * j.d.chan.toNat) (fun y => { y with sq := { y.sq with dq := y.sq.dq ++ [x] } })

/-- A storage transfer ends: its token and its completion. -/
def State.endStor (s : State) (j : StorJob) : State :=
  let s0 := { s with foyer := { s.foyer with stor := s.foyer.stor.erase j } }
  let s1 := if j.d.tokEn && moved j.status then s0 else s0.showRange j.hid
  (if moved j.status then s1.raiseToken j.tokSlice j.d else s1).finishXfer j.hdr j.op j.d j.status j.detail j.crc

/-- A storage transfer replaced in the list. -/
def State.putStor (s : State) (j j1 : StorJob) : State :=
  { s with foyer := { s.foyer with stor := s.foyer.stor.map (fun x => if x = j then j1 else x) } }

/-- A storage transfer starts (`gated` is true until then): its requests or its data leave. See 07 R301, R302. -/
def State.startStor (s : State) (j : StorJob) (ups : List Upset) : State :=
  let endWith := fun (st : BitVec 16) (d : Word64) =>
    let j1 := { j with gated := false, status := st, detail := d }
    (s.putStor j j1).endStor j1
  match s.gateAbort j.d with
  | some o => endWith 0x0008 (o.zeroExtend 64)
  | none =>
    match s.xferBad j.hdr j.d (j.op = 3) with
    | some (st, d) => endWith st d
    | none =>
      let seq := s.foyer.storSeq
      let s0 := { s with foyer := { s.foyer with storSeq := seq + 1 } }
      if j.op = 3 then
        let cs := storChunks j.d.len.toNat
        let s1 := s0.hideRange j.d.off.toNat (xferSpan j.d) (seenFrom j.tokSlice j.d)
        (s1.putStor j { j with gated := false, left := cs.length, hid := s1.freeCtr }).each cs (fun s (a, n) => s.sendStor j 1 a n 0 [] seq)
      else
        let x := (s0.arise ups).partRead j.d.off.toNat j.d.len.toNat
        let crc := xferCrc j.d x.bytes
        let r := xferResult x.s.now j.d x.bad x.old crc
        let bs := xferBytes j.d x.bytes
        let cs := storChunks bs.length
        (x.s.putStor j { j with gated := false, left := cs.length, status := r.1, detail := r.2, crc }).each cs (fun s (a, n) =>
          s.sendStor j 0 a n (pieceMap x.poison a n) ((bs.drop a).take n) seq)

/-- The first storage transfer that may start: its gate has opened, and no earlier one of its port waits (R452). -/
def State.readyStor (s : State) : Option StorJob :=
  let js := s.foyer.stor
  (js.zipIdx.find? (fun (j, i) => j.gated && s.gateOpen j.d
    && !(js.take i).any (fun y => y.gated && y.d.chan = j.d.chan))).map (fun x => x.1)

/-- Storage transfers whose gates have opened start; at most `n`. -/
def State.openStor : Nat → State → List Upset → State
  | 0, s, _ => s
  | n + 1, s, ups =>
    match s.readyStor with
    | none => s
    | some j => (s.startStor j ups).openStor n []

/-- A storage descriptor: the port must carry class D and its link must be up to be of use; a dead one ends it (09 R406). -/
def State.storage (s : State) (op : Byte) (h : DescHdr) (d : DmaDesc) (ups : List Upset) : State :=
  let p := d.chan.toNat
  if s.xferRefused h d || !s.hasPort p || s.role p 0 ≠ 0x20 then s.refuse h op (xferOrd d) d.chan
  else
    let j : StorJob := { op, hdr := h, d, gated := true, left := 0, status := 0, detail := d.len.zeroExtend 64, crc := none
                         tokSlice := s.tokenSlice d }
    let s1 := { s with foyer := { s.foyer with stor := s.foyer.stor ++ [j] } }
    s1.openStor s1.foyer.stor.length ups

/-- STOR_RD (R479). -/
def execStorRd (hdr : DescHdr) (d : DmaDesc) (s : State) : Out := withDesc hdr 0x03 (fun s => s.storage 0x03 hdr d []) s (xferOrd d) d.chan

/-- STOR_WR (R479). -/
def execStorWr (hdr : DescHdr) (d : DmaDesc) (ups : List Upset) (s : State) : Out :=
  withDesc hdr 0x04 (fun s => s.storage 0x04 hdr d ups) s (xferOrd d) d.chan

/-- DMA_GATE_OPEN (R475): the gate landing of the channel's transfer has ended. Storage transfers, which use no channel, whose
gates have opened start as well. -/
def execDmaGateOpen (c : Fin 16) (s : State) : Out :=
  let s1 := s.startXfer c.val
  .next (s1.openStor s1.foyer.stor.length [])

/-- A storage transfer of port `p` to which an answer belongs: by its tag (R479). -/
def State.storOf (s : State) (p op : Nat) (d : StorageParcel) : Option StorJob :=
  s.foyer.stor.find? (fun j => j.op.toNat = op && !j.gated && j.d.chan.toNat = p && j.hdr.tag = d.tag && 0 < j.left)

/-- Storage transfers of a port that are answered end in ring order; at most `n`. -/
def State.drainStor : Nat → State → Nat → State
  | 0, s, _ => s
  | n + 1, s, p =>
    match s.foyer.stor.find? (fun j => j.d.chan.toNat = p) with
    | none => s
    | some j => if !j.gated && j.left = 0 then (s.endStor j).drainStor n p else s

/-- The CRC of a finished storage read, over its bytes as written, and what its mode asks for (R474). -/
def State.closeRead (s : State) (j : StorJob) : State :=
  if j.left ≠ 0 || j.status ≠ 0 then s
  else
    let bs := (s.partRead j.d.off.toNat j.d.len.toNat).bytes
    let crc := xferCrc j.d bs
    let r := xferResult s.now j.d none none crc
    match if j.d.crcMode = 2 then s.xferBad j.hdr j.d true else none with
    | some (st, x) => s.putStor j { j with status := st, detail := x }
    | none =>
      let s1 := if j.d.crcMode = 2 then s.partWrite (j.d.off.toNat + j.d.len.toNat) (bvBytes 8 (crc64 bs)) (fun _ _ => false) else s
      s1.putStor j { j with status := r.1, detail := r.2, crc }

/-- A nonzero status byte of an answer (11 Table 11.8, 0x000D). -/
def StorJob.answered (j : StorJob) (st : Byte) : StorJob :=
  let j1 := { j with left := j.left - 1 }
  if st = 0 || (j.status ≠ 0 && !moved j.status) then j1 else { j1 with status := 0x000D, detail := st.zeroExtend 64 }

/-- The data of an answer to a storage read put to part memory. A range that may no longer be used takes no byte, and the transfer ends
with that status (06 R274, R247). -/
def State.storData (s : State) (j : StorJob) (at_ : Nat) (bs : List Byte) (map : BitVec 16) : State × StorJob :=
  match s.xferBad j.hdr j.d true with
  | some (st, x) => (s, if moved j.status then { j with status := st, detail := x } else j)
  | none => (s.partWrite (j.d.off.toNat + at_) bs (mapHits map), j)

/-- STORAGE_READ_RESPONSE (R361): the data go to part memory, when their last line finds its frame and places; the last answer ends
the transfer. -/
def execStorageReadResponse (p : Fin 30) (chip : BitVec 16) (d : StorageParcel) (s : State) : Out :=
  if !s.hasPort p.val then .fault .absentUnit
  else
    let map := s.storageMap p.val 2 d
    let s1 := s.takeIn (fun x => isStorage p.val 2 d x && hdrChip x.hdr = chip.toNat)
    match (if s1.mine p.val d then s1.storOf p.val 3 d else none) with
    | none => .next (s1.dropOn (2 * p.val))
    | some j =>
      let at_ := (localOff d.addr + 2 ^ 48 - localOff j.d.addr) % 2 ^ 48
      let bs := d.data.take (j.d.len.toNat - at_)
      let data := d.status = 0 && at_ < j.d.len.toNat
      match if data && (s1.xferBad j.hdr j.d true).isNone then s1.unschedXfer (j.d.off.toNat + at_) bs.length true else some s1 with
      | none => .next s
      | some s0 =>
        let (s2, j0) := if data then s0.storData j at_ bs map else (s0, j)
        let j1 := j0.answered d.status
        let s3 := (s2.putStor j j1).closeRead j1
        .next (s3.drainStor s3.foyer.stor.length p.val)

/-- STORAGE_WRITE_ACKNOWLEDGEMENT (R361). -/
def execStorageWriteAcknowledgement (p : Fin 30) (chip : BitVec 16) (d : StorageParcel) (s : State) : Out :=
  if !s.hasPort p.val then .fault .absentUnit
  else
    let s1 := s.takeIn (fun x => isStorage p.val 3 d x && hdrChip x.hdr = chip.toNat)
    match (if s1.mine p.val d then s1.storOf p.val 4 d else none) with
    | none => .next (s1.dropOn (2 * p.val))
    | some j =>
      let s2 := s1.putStor j (j.answered d.status)
      .next (s2.drainStor s2.foyer.stor.length p.val)

/-! ### Host link resets (11 R441) -/

/-- Every transfer in flight, with its operation. -/
def State.flying (s : State) : List (Byte × DmaDesc) :=
  s.chans.flatMap (fun c => (c.2.act.toList.filter (fun j => j.started && moved j.status)).map (fun j => (j.op, j.d)))
    ++ (s.foyer.stor.filter (fun j => !j.gated)).map (fun j => (j.op, j.d))

/-- The queues with every FOY_ register at its reset value; SEC_TEN_LO and SEC_TEN_HI are kept (15 Table 15.11). -/
def State.resetQueues (s : State) : SMap Queue :=
  (List.range 16).foldl (fun m n =>
    let q := s.queue n
    SMap.set {} m n { chm := if n = 0 then 0xFFFF else 0, tenLo := q.tenLo, tenHi := q.tenHi, tenSeq := q.tenSeq, tenAt := q.tenAt }) []

/-- HOST_LINK_RESET (R441): every FOY_ and DMA_ register takes its reset value, and transfers end without completions. Log 55 (DEDUCED). -/
def execHostLinkReset (_why : HostReset) (s : State) : Out :=
  let s1 := s.each s.flying (fun s x => s.spoil x.1 x.2)
  let hid := s.chans.flatMap (fun c => c.2.act.toList.map (fun j => j.hid)) ++ s.foyer.stor.map (fun j => j.hid)
  .next { s1 with
    unseen := s1.unseen.filter (fun u => !hid.contains u.tag)
    queues := s.resetQueues
    chans := []
    foyer := { msix := s.foyer.msix, pba := s.foyer.pba, irqs := s.foyer.irqs, storSeq := s.foyer.storSeq } }

end Sys2Proof.Machine
end

