-- ==== Sys2Proof/Machine/Book.lean ====
section
/-! DEFINITION. Flight books, tokens from the host, evictions, admissions and retirements (07 R315 to R319, R615; 10 R411 to
R435; 11 R459 to R465).
-/
namespace Sys2Proof
open Machine

/-! ### The byte image of a flight binary (10 R418, Tables 10.4 to 10.6) -/

/-- The `n` bytes of an image from offset `o`, little-endian; bytes past its end read as 0. -/
def Binary.num (b : Binary) (o n : Nat) : Nat := leNat ((b.image.drop o).take n)

/-- Fields of the header (Table 10.4). -/
def Binary.pid (b : Binary) : BitVec 16 := BitVec.ofNat 16 (b.num 6 2)
def Binary.k (b : Binary) : Nat := b.num 8 1
def Binary.topo (b : Binary) : Nat := b.num 9 1
def Binary.grid (b : Binary) : Nat := b.num 10 1
def Binary.flags (b : Binary) : Byte := BitVec.ofNat 8 (b.num 11 1)
def Binary.n (b : Binary) : Nat := b.num 12 2
def Binary.nsec (b : Binary) : Nat := b.num 14 2
def Binary.total (b : Binary) : Nat := b.num 16 4

end Sys2Proof

namespace Sys2Proof.Machine

/-- Entries of `n` bytes of a section, as numbers. -/
def entries (n : Nat) (bs : List Byte) : List Nat := (List.range (bs.length / n)).map (fun i => leNat ((bs.drop (n * i)).take n))

/-- A landing table entry (Table 10.6). -/
def landEnt (x : Nat) : LandEnt :=
  { a := BitVec.ofNat 32 x, w4 := BitVec.ofNat 16 (x / 2 ^ 32), d4 := BitVec.ofNat 16 (x / 2 ^ 48), flags := BitVec.ofNat 8 (x / 2 ^ 64)
    res := x / 2 ^ 72 % 2 ^ 56 ≠ 0 }

/-- An entry of the section table (Table 10.5), with its place there and the bytes of its section. -/
structure Section where
  i : Nat
  kind : Nat
  position : Nat
  index : Nat
  off : Nat
  len : Nat
  bytes : List Byte
  body : Option SecBody

/-- Section `i` of a binary. -/
def section_ (b : Binary) (i : Nat) : Section :=
  let f := fun (o n : Nat) => b.num (64 + 16 * i + o) n
  { i, kind := f 0 1, position := f 2 2, index := f 4 2, off := f 8 4, len := f 12 4
    bytes := (b.image.drop (f 8 4)).take (f 12 4), body := (b.bodies.find? (fun e => e.1 = i)).map (fun e => e.2) }

/-- The sections of a binary. -/
def secs (b : Binary) : List Section := (List.range b.nsec).map (section_ b)

/-- The landing table that a section holds, its share, its slot table, its timetable and its commit regions; nothing where it is of
another kind. -/
def Section.lands (x : Section) : Option (List LandEnt) := if x.kind = 1 then some ((entries 16 x.bytes).map landEnt) else none
def Section.share (x : Section) : Option Share :=
  match x.kind, x.body with
  | 2, some (.share h) => some { h with vh := BitVec.ofNat 16 x.index }
  | _, _ => none
def Section.slots (x : Section) : Option (List (BitVec 128)) :=
  if x.kind = 3 then some ((entries 16 x.bytes).map (BitVec.ofNat 128)) else none
def Section.timetable (x : Section) : Option (List (BitVec 256)) :=
  if x.kind = 4 then some ((entries 32 x.bytes).map (BitVec.ofNat 256)) else none
def Section.cregs (x : Section) : List (Nat × Nat × Nat) :=
  match x.kind, x.body with
  | 6, some (.cregs l) => l
  | _, _ => []

/-! ### Checks at residency (10 R435, Table 10.12) -/

/-- A check that failed: its number, section index and byte offset. -/
abbrev BinFail := Nat × Nat × Nat

/-- Check `n` fails on a field of the header or section table at offset `o`. -/
def headFail (n o : Nat) (bad : Bool) : Option BinFail := if bad then some (n, 0xFFFF, o) else none

/-- The offset of field `o` of entry `i` of the section table. -/
def secField (i o : Nat) : Nat := 64 + 16 * i + o

/-- A pace identifier that Table 10.1 does not reserve: A0 from 0xA001, B0 from 0xB001. See 05 R231; 10 R412. -/
def pidKnown (pid : BitVec 16) : Bool := (0xA001 ≤ pid.toNat && pid.toNat ≤ 0xA003) || (0xB001 ≤ pid.toNat && pid.toNat ≤ 0xB003)

/-- A pace identifier of stepping A0. -/
def pidA0 (pid : BitVec 16) : Bool := pid.toNat < 0xB000

/-- Shares of a binary at position `pos`. -/
def binShares (b : Binary) (pos : Nat) : List Share :=
  (secs b).filterMap (fun x => if x.position = pos then x.share else none)

/-- The halls that carry the shares of a binary for slice `k`. -/
def State.binHalls (s : State) (k : Nat) (b : Binary) : List Nat :=
  (s.hallsOf k).filter (fun ph => (binShares b (s.sl k).id.pos).any (fun x => x.vh.toNat = (s.hall ph).vh))

/-- The pace identifier can run here (10 Table 10.2). See 10 R415. -/
def State.runnable (s : State) (k : Nat) (b : Binary) : Bool :=
  pidKnown b.pid &&
    (match s.cfg.stepping with
    | .a0 => pidA0 b.pid
    | .b0 => (s.binHalls k b).all (fun ph => (s.hall ph).reg.asA0 = pidA0 b.pid))

/-- Reserved values of the header (10 Table 10.4). -/
def headReserved (b : Binary) : Option BinFail :=
  (headFail 4 8 (13 < b.k)).or <| (headFail 4 9 (2 < b.topo)).or <|
    (headFail 4 10 (b.grid < 16 || 64 < b.grid || b.grid % 4 ≠ 0)).or <|
    (headFail 4 11 (1 < b.flags.toNat)).or <| (headFail 4 12 (b.n < 2 || 4096 < b.n)).or <|
    (headFail 4 14 (b.nsec = 0)).or <| (headFail 4 20 (b.num 20 4 ≠ 0)).or <| headFail 4 32 (b.num 32 32 ≠ 0)

/-- Reserved values of a section table entry (10 Table 10.5). -/
def secReserved (b : Binary) (x : Section) : Option BinFail :=
  (headFail 4 (secField x.i 0) (x.kind = 0 || 6 < x.kind)).or <| (headFail 4 (secField x.i 1) (b.num (secField x.i 1) 1 ≠ 0)).or <|
    (headFail 4 (secField x.i 2) (8191 < x.position || (x.kind = 1 && x.position ≠ 0))).or <|
    (headFail 4 (secField x.i 4) ((x.kind = 1 || x.kind = 6) && x.index ≠ 0)).or <|
    (headFail 4 (secField x.i 6) (b.num (secField x.i 6) 2 ≠ 0)).or <|
    headFail 4 (secField x.i 8) (x.off % 32 ≠ 0)

/-- Reserved values of a landing table entry (10 Table 10.6). -/
def landReserved (e : LandEnt) : Option Nat :=
  if e.w4.toNat < 63 then some 4 else if e.w4.toNat + 1 < e.d4.toNat then some 6
  else if 15 < e.flags.toNat then some 8 else if e.res then some 9 else none

/-- Reserved values of a slot table entry (06 Table 06.5). -/
def slotReserved (x : BitVec 128) : Option Nat :=
  if slotKind x = 0 ∨ 4 < slotKind x then some 1
  else if slotPeriod x = 0 ∧ slotCount x ≠ 1 then some 11
  else if x.extractLsb' 0 2 ≠ 0 then some 0 else none

/-- Reserved values of a timetable entry (08 Tables 08.6, 08.7). -/
def ttReserved (x : BitVec 256) : Option Nat :=
  let e := TtEnt.ofBits x
  if e.period = 0 ∧ e.count1 ≠ 0 then some 4 else if 4095 < e.count1 then some 6
  else if 8 < e.op ∨ e.red = 3 ∨ (e.op ≠ 4 ∧ e.red ≠ 0) ∨ x.getLsbD 79 then some 9
  else if x.extractLsb' 90 6 ≠ 0 then some 10 else if x.getLsbD 111 then some 12
  else if x.extractLsb' 124 4 ≠ 0 then some 14 else if x.getLsbD 183 then some 22
  else if x.extractLsb' 184 8 ≠ 0 then some 23 else if e.op ≠ 8 ∧ e.off ≠ 0 then some 24 else none

/-- The first entry of a list that holds a reserved value: its offset in a section of entries of `n` bytes. -/
def firstBad {α : Type} (n : Nat) (f : α → Option Nat) (l : List α) : Option Nat :=
  l.zipIdx.findSome? (fun (e, i) => (f e).map (fun o => n * i + o))

/-- The first bundle of a share that decodes to none, or that the loader rejects in its stream (05 R183), on a part of `ports` ports; `mb`
is flag bit 0 of the header. -/
def badBundle (ports : Nat) (mb : Bool) (x : Share) : Option Nat :=
  x.streams.zipIdx.findSome? (fun (l, g) => (streamBad ports mb l).map (Config.shareOffset g))

/-- Check 4 on the contents of a section. -/
def bodyReserved (ports : Nat) (b : Binary) (x : Section) : Option BinFail :=
  ((x.lands.bind (firstBad 16 landReserved)).or <| (x.share.bind (badBundle ports (b.flags.getLsbD 0))).or <|
    (x.slots.bind (firstBad 16 slotReserved)).or <| x.timetable.bind (firstBad 32 ttReserved)).map (fun o => (4, x.i, x.off + o))

/-- Check 5: every section inside the binary, every vH below the grid. -/
def insideFail (b : Binary) : Option BinFail :=
  (secs b).findSome? (fun x =>
    (headFail 5 (secField x.i 8) (b.total < x.off + x.len)).or <| headFail 5 (secField x.i 4) (x.kind = 2 && decide (b.grid ≤ x.index)))

/-- Check 6: n entries for every position, `end` at the last index, branch landings only at the end (10 R422). -/
def landFail (b : Binary) : Option BinFail :=
  let np := 2 ^ b.k
  match (secs b).find? (fun x => x.kind = 1) with
  | none => some (6, 0xFFFF, 12)
  | some x =>
    if x.len ≠ 16 * (b.n * np) then some (6, 0xFFFF, secField x.i 12)
    else
      (((x.lands).getD []).zipIdx.findSome? (fun (e, j) =>
        let last := j / np + 1 = b.n
        if (last && !e.flags.getLsbD 3) || (e.flags.getLsbD 2 && !e.flags.getLsbD 3) then some (16 * j + 8) else none)).map
        (fun o => (6, x.i, x.off + o))

/-- Check 8: controllers, ports and halves that sections name are present, those of a commit region list too. -/
def State.unitFail (s : State) (b : Binary) : Option BinFail :=
  (secs b).findSome? (fun x =>
    let n := x.index
    let absent := match x.kind with
      | 3 => !s.hasStack n
      | 4 | 5 => !s.hasLink (n / 2) (n % 2)
      | _ => false
    (headFail 8 (secField x.i 4) absent).or <|
      (x.cregs.zipIdx.findSome? (fun (c, i) => if s.hasStack c.1 then none else some (8, x.i, x.off + Config.cregOffset i))))

/-- What every gallery of a share must have alike: delta, lend, and LOOP and LAND. -/
def bundleKey (b : Bundle) : Option (Nat × Nat × List (Nat × GOp)) :=
  (decodeBundle b).map (fun x => (x.delta, x.lend, x.ops.filter (fun e => isLand e.2 || (match e.2 with | .loop _ => true | _ => false))))

/-- Check 9 on one share: 16 streams of equal length that agree bundle by bundle. -/
def shareFail (x : Share) : Option Nat :=
  match x.streams with
  | [] => some (Config.shareOffset 0 0)
  | r :: _ =>
    if x.streams.length ≠ 16 then some (Config.shareOffset x.streams.length 0)
    else
      x.streams.zipIdx.findSome? (fun (l, g) =>
        if l.length ≠ r.length then some (Config.shareOffset g (min l.length r.length))
        else (l.zip r).zipIdx.findSome? (fun ((a, c), i) =>
          if bundleKey a = bundleKey c then none else some (Config.shareOffset g i)))

/-- Every check of Table 10.12 in order, for a flight of slice `k`. -/
def State.binFail (s : State) (k : Nat) (e : BookEntry) : Option BinFail :=
  let b := e.bin
  (headFail 1 0 (b.num 0 4 ≠ 0x4C465641)).or <| (headFail 1 4 (b.num 4 2 ≠ 1)).or <|
    (headFail 2 16 (b.total ≠ e.len.toNat || b.total ≠ b.image.length)).or <|
    (headFail 2 24 (b.num 24 8 ≠ (crc64 (b.image.drop 64)).toNat)).or <|
    (headFail 3 6 (!s.runnable k b)).or <|
    (headReserved b).or <| ((secs b).findSome? (secReserved b)).or <|
    ((secs b).findSome? (bodyReserved (portsOf s.cfg.grade) b)).or <|
    (insideFail b).or <| (landFail b).or <| (headFail 7 0 (4096 ≤ s.resident.length)).or <| (s.unitFail b).or <|
    ((secs b).findSome? (fun x => (x.share.bind shareFail).map (fun o => (9, x.i, x.off + o)))).or <|
    headFail 10 0 (s.flight e.flight.toNat).isSome

/-! ### Residency (11 R460, R461) -/

/-- The landing table of one position (10 R422). -/
def binLands (b : Binary) (pos : Nat) : List LandEnt :=
  let np := 2 ^ b.k
  match (secs b).findSome? Section.lands with
  | none => []
  | some l => (List.range b.n).filterMap (fun i => l[i * np + pos]?)

/-- Sections of a position chosen by `f`. -/
def binPick {α : Type} (b : Binary) (pos : Nat) (f : Section → Option α) : List α :=
  ((secs b).filter (fun x => x.position = pos)).filterMap f

/-- A flight of a book as the part holds it. -/
def bookFlight (k : BitVec 8) (pos : Nat) (start : Word) (e : BookEntry) : Flight :=
  let b := e.bin
  { slice := k, pid := b.pid, grid := b.grid, flags := b.flags, lands := binLands b pos, shares := binShares b pos
    slotTabs := binPick b pos (fun x => x.slots.map (fun l => (x.index, l)))
    tts := binPick b pos (fun x => x.timetable.map (fun l => (x.index, l)))
    cregs := (binPick b pos (fun x => some x.cregs)).flatten
    need := e.need, succs := e.succs.map (fun x => x.toNat), start, cand := false, received := 0, run := none
    segsIn := [], ttsIn := [], offHalls := [] }

/-- The streams of a share in HBM where they are placed. -/
def State.placeShare (s : State) (x : Share) : State :=
  s.each (x.code.zip x.streams) (fun s (a, l) => s.writeBytes a (l.flatMap (fun b => bvBytes 32 b)))

/-- A flight made resident. -/
def State.reside (s : State) (k : BitVec 8) (start : Word) (e : BookEntry) : State :=
  let f := bookFlight k (s.sl k.toNat).id.pos start e
  s.each f.shares (fun s x => s.placeShare x) |>.setFlight e.flight.toNat (some f)

/-- The flights of a book in entry order: the part with all of them resident, or the entry that is refused, with its check. -/
def State.resideAll (s : State) (k : BitVec 8) (start : Word) : Nat → List BookEntry → State ⊕ (Nat × BinFail)
  | _, [] => .inl s
  | i, e :: es =>
    match s.binFail k.toNat e with
    | some x => .inr (i, x)
    | none => (s.reside k start e).resideAll k start (i + 1) es

/-- A book entry holds a reserved value (11 Table 11.11). -/
def entryReserved (e : BookEntry) : Bool :=
  4096 ≤ e.flight.toNat || e.need = 0 || 4095 < e.preds.length || 16 < e.succs.length || e.res

/-- TIM_SLICE_ORD: the ordinal of the most recent landing to start (15 Table 15.6). -/
def State.sliceOrd (s : State) (k : Nat) : Word := if (s.sl k).started then (s.sl k).land.ord else 0

/-- An ordinal lies from 1 to 2^31 − 1 landings ahead of that (11 R461). -/
def State.ahead (s : State) (k : Nat) (o : Word) : Bool :=
  let d := (o - s.sliceOrd k).toNat
  1 ≤ d && d < 2 ^ 31

/-- A completion that carries an ordinal of effect (11 Table 11.7). -/
def State.finishStale (s : State) (h : DescHdr) (op : Byte) (o : Word) : State := s.finish h op 0x0009 (o.zeroExtend 64) o

/-- BOOK (11 R459 to R461). Log 56 (DEDUCED). -/
def execBook (hdr : DescHdr) (slice : BitVec 8) (start : Word) (es : List BookEntry) (s : State) : Out :=
  withSteward hdr 0x10 (fun s =>
    let k := slice.toNat
    if es.isEmpty || 4096 < es.length || es.any entryReserved || !(s.sl k).admitted || !s.actsFor hdr slice then
      s.refuse hdr 0x10
    else if !s.ahead k start then
      s.finishRec hdr 0x10 0x0009 (start.zeroExtend 64)
        { cause := 0x0300, slice := some k, detail := BitVec.ofNat 64 (0x10 + 256 * hdr.queue.val) } start
    else
      match s.resideAll slice start 0 es with
      | .inl t => t.finish hdr 0x10 0 0 start
      | .inr (i, n, sec, off) =>
        s.finishRec hdr 0x10 0x000A (BitVec.ofNat 64 i)
          { cause := 0x0118, slice := some k, detail := BitVec.ofNat 64 (n + 2 ^ 16 * sec + 2 ^ 32 * off) } start) s

/-! ### Tokens and evictions (11 R464, R465) -/

/-- TOKEN (11 R464): the token is held by all stair controllers; one whose ordinal has passed is stale. -/
def execTokenDescriptor (hdr : DescHdr) (flight : BitVec 16) (ord : Word) (s : State) : Out :=
  withSteward hdr 0x11 (fun s =>
    match (if flight.toNat < 4096 then s.flight flight.toNat else none) with
    | none => s.refuse hdr 0x11
    | some f =>
      if !s.actsFor hdr f.slice then s.refuse hdr 0x11
      else
        let stale := s.ordFinal f.slice.toNat ord
        let s1 := s.deliverToken { branch := false, flight := flight.toNat, ord, value := 0, slice := f.slice }
        if stale then s1.finishStale hdr 0x11 ord else s1.finish hdr 0x11 0 0 ord) s

/-- A flight removed: its count, its tokens in the queues, and its heads (11 R465). -/
def State.dropFlight (s : State) (f : Nat) : State :=
  let s1 := (s.setFlight f none).each (SMap.keys s.halls) (fun s ph => s.updHall ph (fun h =>
    { h with heads := h.heads.map (fun x => if x.flight = some f then {} else x) }))
  { s1 with stair := { s1.stair with queue := s1.stair.queue.filter (fun t => t.branch || t.flight ≠ f) } }

/-- EVICT (11 R465): at once with slice 0xFF, else at the report tread of the ordinal. -/
def execEvict (hdr : DescHdr) (flight : BitVec 16) (slice : BitVec 8) (ord : Word) (s : State) : Out :=
  withSteward hdr 0x12 (fun s =>
    let n := flight.toNat
    match (if n < 4096 then s.flight n else none) with
    | none => s.refuse hdr 0x12
    | some f =>
      if !s.actsFor hdr f.slice || (slice ≠ 0xFF && (!(s.sl slice.toNat).admitted || !s.actsFor hdr slice)) then
        s.refuse hdr 0x12
      else if slice = 0xFF then
        let busy := f.run.isSome || (s.sl f.slice.toNat).land.launch.contains n && (s.sl f.slice.toNat).atLanding
        if busy then s.finish hdr 0x12 0x000C (flight.zeroExtend 64) 0 else (s.dropFlight n).finish hdr 0x12 0 0 0
      else if s.ordFinal slice.toNat ord then s.finishStale hdr 0x12 ord
      else s.updSl slice.toNat (fun x => { x with evicts := x.evicts ++ [{ ord, flight := n, hdr }] })) s

/-- At D of the present landing, before the launch set is computed, for the ordinal `o`; none while it has not come. -/
def State.atReport (s : State) (k : Nat) (o : Word) : Option State :=
  let x := s.sl k
  if x.started && ordBefore o x.land.ord then some s
  else if x.phase = .landing && x.land.ord = o then
    let t := s.rawOf k (x.land.a + BitVec.ofNat 64 x.land.d)
    let s1 := s.waitUntil t
    if s1.now < t then none else some s1
  else none

/-- FLIGHT_EVICTION (11 R465): a flight that runs, or that is in the launch set, is busy. -/
def execFlightEviction (slice : BitVec 8) (flight : BitVec 12) (s : State) : Out :=
  let k := slice.toNat
  match (s.sl k).evicts.find? (fun e => e.flight = flight.toNat) with
  | none => .next s
  | some e =>
    match s.atReport k e.ord with
    | none => .next s
    | some s1 =>
      let s2 := s1.updSl k (fun x => { x with evicts := x.evicts.erase e })
      let busy := match s2.flight e.flight with
        | none => false
        | some f => f.run.isSome || (s2.sl k).land.launch.contains e.flight
            || (((s2.startBooks k).countTokens k).launchSet k).contains e.flight
      .next (if busy then s2.finish e.hdr 0x12 0x000C (flight.zeroExtend 64) e.ord
        else (s2.dropFlight e.flight).finish e.hdr 0x12 0 0 e.ord)

/-! ### Admission (07 R316 to R318) -/

/-- The identity that an admission record gives. -/
def recId (r : AdmitRec) : SliceId :=
  { k := r.k.toNat, topo := r.topo.toNat, base := r.base, a := r.a.toNat, b := r.b.toNat, c := r.c.toNat
    racks := r.racks.map (fun x => x.toNat), master := r.master, lead := r.lead }

/-- The members are an aligned block of chip numbers (07 R293), or an aligned box inside the extents (07 R297, R299). -/
def SliceId.aligned (cfg : Cfg) (i : SliceId) : Bool :=
  let b := i.base.toNat
  if i.topo = 0 then 6 ≤ i.k || (b ≤ 0x1FFF && b % 2 ^ i.k = 0)
  else
    let c := coords cfg.ex cfg.ey b
    b < cfg.ex * cfg.ey * cfg.ez && c.1 % 2 ^ i.a = 0 && c.2.1 % 2 ^ i.b = 0 && c.2.2 % 2 ^ i.c = 0
      && c.1 + 2 ^ i.a ≤ cfg.ex && c.2.1 + 2 ^ i.b ≤ cfg.ey && c.2.2 + 2 ^ i.c ≤ cfg.ez

/-- Check 1 of R316: every field holds an allowed value; the master is a member (R313). -/
def recAllowed (cfg : Cfg) (len : Word) (r : AdmitRec) : Bool :=
  let k := r.k.toNat
  let nr := if r.topo = 0 && 6 ≤ k then 2 ^ (k - 5) else 0
  r.slice ≠ 0xFF && k ≤ 13 && r.topo.toNat ≤ 2 && !r.res && 65536 ≤ r.lead.toNat
    && r.rackCount.toNat = nr && r.racks.length = nr && len.toNat = 32 + nr && r.racks.eraseDups.length = nr
    && (if r.topo = 0 then r.a = 0 && r.b = 0 && r.c = 0 && (k ≤ 5 || r.base = 0)
        else r.a.toNat + r.b.toNat + r.c.toNat = k)
    && (recId r).aligned cfg && (r.master = 0xFFFF || (positionOf cfg (recId r) r.master.toNat).isSome)

/-- The chip numbers of a slice in order of position. -/
def members (cfg : Cfg) (i : SliceId) : List Nat := (List.range (2 ^ i.k)).map (fun q => chipAt cfg i q)

/-- Check 7 of R316 on one link: identified, as the installation map has it for each of its ports, facing the right chip, near
enough. See 07 R289. -/
def State.linkFits (s : State) (i : SliceId) (p h : Nat) : Bool :=
  let x := s.link (2 * p + h)
  match roleTarget s.cfg i i.pos (s.role p h) with
  | none => true
  | some q => x.nbr.state = 3 && x.nbr.map = 1 && (s.form p != .bond || (s.highNbr (p + 1) x.nbr).map = 1)
      && x.nbr.chip.toNat = chipAt s.cfg i q && x.delay ≤ 2048

/-- The roles through which a slice reaches its neighbours (07 R294, R298, R299). -/
def State.rolesOf (s : State) (i : SliceId) : List Nat :=
  (List.range 0x16).filter (fun r => (roleTarget s.cfg i i.pos r).isSome)

/-- The first check of R316 that fails, with the slice's identity for the checks that need it. Log 42 (DEDUCED). -/
def State.admitFail (s : State) (len : Word) (r : AdmitRec) : Option Nat :=
  let i := recId r
  if !recAllowed s.cfg len r then some 1
  else if s.linkmap.toNat ≠ i.topo then some 2
  else
    match positionOf s.cfg i s.cfg.chip.toNat with
    | none => some 3
    | some pos =>
      let i := { i with pos }
      if (s.sl r.slice.toNat).admitted then some 4
      else if s.admitted.any (fun k => members s.cfg (s.sl k).id ≠ members s.cfg i) then some 5
      else if (s.linksOf i).any (fun l => 64 ≤ (s.admitted.filter (fun k => (s.linksOf (s.sl k).id).contains l)).length) then
        some 6
      else if (s.linksOf i).any (fun l => !s.linkFits i l.1 l.2) || (s.rolesOf i).any (fun r => (s.linkOfRole r).isNone) then some 7
      else if 1 ≤ i.k && !s.tim.everLocked then some 8
      else none

/-- An admission that has passed: the master sets its epoch, another member takes a kept epoch parcel of its parent. -/
def State.admitSlice (s : State) (r : AdmitRec) : State :=
  let k := r.slice.toNat
  let i := recId r
  let id := { i with pos := (positionOf s.cfg i s.cfg.chip.toNat).getD 0 }
  let kept := (s.sl k).kept
  let s1 := s.updSl k (fun _ => { admitted := true, id })
  let s2 := match kept with
    | none => s1
    | some x =>
      if s1.parentLink id = some (x.link / 2, x.link % 2) then s1.applyEpoch k x.link x.epoch x.sent x.at_
      else s1.dropOn x.link
  if masterChip id = s.cfg.chip.toNat then
    let e := s2.clk.tread + r.lead.zeroExtend 64
    (s2.updSl k (fun x => { x with epoch := e, epochSet := true })).relay (.epoch k e 0)
  else s2

/-- The test walks that come before the first admission after an identity reset (14 Table 14.7): of every gallery that has power. Log 69 (DEDUCED). -/
def State.firstWalks (s : State) : State :=
  let gs := (List.range 1024).filter (fun gi => (s.hall (gi / 16)).st = .idle && (s.gal gi).cond != .fenced && (s.gal gi).walk.isNone)
  let s1 := s.each gs State.startWalk
  { s1 with sec := { s1.sec with walkAll := false, walkWait := true } }

/-- Walks of that kind still run. -/
def State.walking (s : State) : Bool := s.sec.walkWait && s.gals.any (fun e => e.2.walk.isSome)

/-- ADMIT (07 R316). -/
def execAdmitDesc (hdr : DescHdr) (len : Word) (r : AdmitRec) (s0 : State) : Out :=
  let s := if s0.sec.walkAll && s0.mayStart hdr && !s0.stewardBusy hdr then s0.firstWalks else s0
  if s.walking then .next s
  else withSteward hdr 0x20 (fun s =>
    if hdr.queue.val ≠ 0 then s.refuse hdr 0x20
    else
      match s.admitFail len r with
      | some n =>
        let s1 := if (s.sl r.slice.toNat).admitted || r.slice = 0xFF then s
          else s.updSl r.slice.toNat (fun x => { x with kept := none, refused := true })
        s1.finish hdr 0x20 0x000B (BitVec.ofNat 64 n) 0
      | none => (s.admitSlice r).finish hdr 0x20 0 0 0) { s with sec := { s.sec with walkWait := false } }

/-- A context of a retired slice: disabled, its entries gone; its share and its counters stay (07 R319, 08 R365, R367). -/
def Ctx.retire (x : Ctx) : Ctx :=
  { half := x.half, slice := x.slice, wheel := x.wheel, cmask := x.cmask, bayHi := x.bayHi, bayLo := x.bayLo, lagMax := x.lagMax
    miss := x.miss, filter := x.filter }

/-- The timetable storage of a slice freed (07 R319), with what far ends have announced for it (08 R353). -/
def State.freeCtxs (s : State) (k : Nat) : State :=
  let s1 := s.each ((SMap.keys s.ctxs).filter (fun c => s.ctxSlice c = k)) (fun s c => s.updCtx c Ctx.retire)
  s1.each (SMap.keys s1.links) (fun s l => s.updLink l (fun x => { x with anns := SMap.set (0, 0) x.anns k (0, 0) }))

/-- What transfers hide until a landing of a retired slice is seen (11 R478). -/
def State.showSlice (s : State) (k : Nat) : State :=
  { s with unseen := s.unseen.filter (fun u => u.tok.map (fun t => t.1) ≠ some k) }

/-- RETIRE (07 R319): its timetable entries, epoch and offset go. Descriptors that still wait for its landings are refused. Log 57 (DEDUCED). -/
def execRetire (hdr : DescHdr) (slice : BitVec 8) (s : State) : Out :=
  withSteward hdr 0x21 (fun s =>
    let k := slice.toNat
    if hdr.queue.val ≠ 0 || slice = 0xFF then s.refuse hdr 0x21
    else if !(s.flightsOf k).isEmpty then s.finish hdr 0x21 0x000C (slice.zeroExtend 64) 0
    else
      let x := s.sl k
      let s1 := ((s.freeCtxs k).showSlice k).updSl k (fun _ => {})
      let s2 := s1.each x.evicts (fun s e => s.refuse e.hdr 0x12)
      let s3 := s2.each x.writes (fun s e => s.refuse e.hdr 0x22)
      s3.finish hdr 0x21 0 0 0) s

end Sys2Proof.Machine
end

