-- ==== Sys2Proof/Machine/Power.lean ====
section
/-! DEFINITION. Power, pace and the rack reference (13): supplies and the main domain, the main-power stop and the resets that
clear the compute dies, the pace loop and boosts, sleep and wake, temperatures, the reference, and the snapshots that register
reads return.
-/
namespace Sys2Proof.Machine

/-! ### What register reads see (13 R536) -/

/-- The units whose counters and status cross to the management domain, as they stand. -/
def State.publish (s : State) : State :=
  { s with pub := { halls := s.halls, gals := s.gals, mcs := s.mcs, ports := s.ports, links := s.links, ctxs := s.ctxs, arcs := s.arcs } }

/-- COUNTER_SNAPSHOT_PUBLISH (R536): at the next multiple of 64 in TREAD. -/
def execCounterSnapshotPublish (s : State) : Out := .next ((s.waitUntil ((s.now + 63) / 64 * 64)).publish)

/-! ### Halls after a reset of the compute dies (03 R125, 12 R500, 15 Table 15.11) -/

/-- Gallery `gi` is fenced in the sealed record. -/
def State.fencedInFlash (s : State) (gi : Nat) : Bool := SMap.get false s.sec.flash.fences gi

/-- A hall as a reset leaves it: absent, withdrawn for a fence or, while `failed`, for its regulator, else asleep. -/
def State.resetHall (s : State) (ph : Nat) (failed : Bool) : Hall :=
  let fenced := (List.range 16).any (fun g => s.fencedInFlash (galIdx ph g))
  { st := if s.cfg.absent.getLsbD ph then .absent else if failed || fenced then .withdrawn else .asleep
    reg := { pid := if s.cfg.stepping = .a0 then 0xA001 else 0xB001 }
    pwr := { failed } }

/-- Every hall and gallery reset; `keep` keeps the halls withdrawn whose regulators have failed. -/
def State.resetHalls (s : State) (keep : Bool) : State :=
  let fences := (List.range 1024).filter (fun gi => s.fencedInFlash gi)
  let s1 := { s with
    halls := (List.range 64).foldl (fun m ph => SMap.set {} m ph (s.resetHall ph (keep && (s.hall ph).pwr.failed))) []
    gals := fences.foldl (fun m gi => SMap.set {} m gi { cond := .fenced }) [] }
  s1.undefine storeBase (storeBase + 1024 * 0x200000)

/-- The end of boot step 9 for the steward: ATR_HEALTH and ATR_ALERT.boot_done (14 R546). -/
def State.bootDone (s : State) : State :=
  if s.sec.healthSet then s
  else
    let s1 := s.countHealth
    { s1 with sec := { s1.sec with healthSet := true, alert := s1.sec.alert ||| 0x20 } }

/-! ### The main domain (13 R511 to R514) -/

/-- Standby leads to main rising when 54 V is in range, PWR_CTL.main is 1, and boot has reached step 8 (Table 13.3; 14 R546,
Table 14.5: no main power without a sealed record). -/
def State.riseMain (s : State) : State :=
  if s.pwr.state = 1 && s.pwr.in54 && s.pwr.main && s.sec.boot = 2 && !s.sec.noRecord && s.clk.running then
    { s with pwr := { s.pwr with state := 2 } }
  else s

/-- Main stopping ends: standby again (Table 13.3). -/
def State.endStopping (s : State) : State :=
  if s.pwr.state = 4 then ({ s with pwr := { s.pwr with state := 1 } }).riseMain else s

/-- Descriptors that wait for the landings of a slice that goes are refused. -/
def State.refuseWaiting (s : State) (k : Nat) : State :=
  let x := s.sl k
  (x.evicts.foldl (fun s e => s.refuse e.hdr 0x12) s).each x.writes (fun s e => s.refuse e.hdr 0x22)

/-- A save or restore under way ends refused. -/
def State.endSave (s : State) : State :=
  if s.flt.status = 2 || s.flt.status = 4 then { s with flt := { s.flt with status := 5 } } else s

/-- Everything in the main domain loses its state (R513, 15 Table 15.11). ARC_GLOBAL is kept. -/
def State.dropMain (s : State) : State :=
  let s1 := s.each ((List.range 30).filter (fun p => s.hasPort p && s.role p 0 = 0x20)) (fun s p => s.failStorage p)
  let s2 := (s1.each s1.admitted (fun s k => s.refuseWaiting k)).endSave
  let s3 := { s2 with
    xport := {}, mcs := [], ports := [], links := [], ctxs := [], bays := [], arcs := [], relays := [], inbox := []
    flights := [], slices := [], stair := {}, upsets := [], unseen := []
    flt := { s2.flt with xing := [] }
    tim := { s2.tim with idleGap := [], idleW := [] } }
  ((s3.resetHalls true).undefine 0 (hbmBytes s.cfg.grade)).publish

/-- The main-power stop (R513): the cause is recorded, the main domain loses its state, and the alert is raised. Log 58 (DEDUCED). -/
def State.mainStop (s : State) (cause : BitVec 4) (source : Byte) : State :=
  if s.pwr.state = 2 || s.pwr.state = 3 then
    let s1 := { s with pwr := { s.pwr with state := 4, evtCause := cause, evtCount := satInc s.pwr.evtCount
                                           evtSource := if cause = 3 then source else 0 } }
    let s2 := s1.dropMain
    { s2 with sec := { s2.sec with alert := s2.sec.alert ||| 1 } }
  else s

/-- The links that train: of enabled ports with a role (07 R288, R303). -/
def State.mayTrain (s : State) (p h : Nat) : Bool :=
  s.hasLink p h && s.lowPort p = p && s.role p h ≠ 0xFF && (s.linkPorts (2 * p + h)).all (fun q => (s.port q).en)

/-- Every link that may train trains fresh. -/
def State.trainAll (s : State) : State :=
  s.each ((List.range 60).filter (fun l => s.mayTrain (l / 2) (l % 2))) (fun s l => s.startFull l)

/-- Fault records that waited for the main domain reach the ring (12 R486). -/
def State.flushRecords (s : State) : State :=
  let s1 := s.each s.flt.waiting (fun s e => s.writeBytes (s.ringAddr e.1) (bvBytes 64 e.2))
  { s1 with flt := { s1.flt with waiting := [] } }

/-- MAIN_ON (R512): main on; the ports train, and the health of the halls is reported. -/
def execMainOn (s : State) : Out :=
  let s0 := s.endStopping
  .next (if s0.pwr.state = 2 then
      ((({ s0 with pwr := { s0.pwr with state := 3 } }).flushRecords.trainAll.bootDone).reportHealth none).publish
    else s0)

/-- A write of PWR_CTL; none where it is refused (R514). -/
def State.wrPwrCtl (s : State) (v : Word) : Option State :=
  if v.getLsbD 0 then some ({ s with pwr := { s.pwr with main := true } }).riseMain
  else if s.admitted.isEmpty then some (({ s with pwr := { s.pwr with main := false } }).mainStop 4 0)
  else none

/-- PWR_CTL_MAIN_WRITE (R514). -/
def execPwrCtlMainWrite (value : Word) (s : State) : Out := .next (s.barWrite 0x30004 value (s.wrPwrCtl value))

/-- FIXED_RATIO_STAGE_FAULT (R513). -/
def execFixedRatioStageFault (s : State) : Out := .next (s.mainStop 5 0)

/-! ### Part reset, and the loss of both supplies (01 R22, 09 R407, 16 R610, R612) -/

/-- The part as a part reset leaves it. The flash, the pins, the supplies, host memory and the waiting commands stay. See 07 R309; 15 R585. -/
def State.partReset (s : State) : State :=
  let s1 := s.each s.flying (fun s x => s.spoil x.1 x.2)
  let t := { State.reset with
    pending := s.pending
    cfg := { s.cfg with chip := 0xFFFF, install := 0, map := [], ex := 1, ey := 1, ez := 1 }
    undef := [(0, storeBase + 1024 * 0x200000, s1.freeCtr + 1)]
    freeCtr := s1.freeCtr + 1
    hostMem := s1.hostMem
    hostUndef := s1.hostUndef
    pwr := { in54 := s.pwr.in54, in12 := s.pwr.in12, v54 := s.pwr.v54, v12 := s.pwr.v12, main := !s.pins.strapRole }
    sec := { flash := s.sec.flash, walkAll := s.sec.walkAll }
    flt := { saves := s.flt.saves }
    pins := { sealOpen := s.pins.sealOpen, strapLinkmap := s.pins.strapLinkmap
              strapRole := s.pins.strapRole, strapFlashv := s.pins.strapFlashv, rstLow := s.pins.rstLow } }
  (t.resetHalls false).publish

/-- What a level makes of a supply's range (R510, Table 13.2), in mV: in from below above `a`, out below `b`, out above `c`, in
from above below `d`. `from_` is the level before, `was` whether it was in range. -/
def inRange (a b c d : Nat) (was : Bool) (from_ mv : Nat) : Bool :=
  if was then decide (b ≤ mv ∧ mv ≤ c)
  else if from_ ≤ a then decide (a < mv ∧ mv ≤ c)
  else decide (b ≤ mv ∧ mv < d)

/-- SUPPLY_THRESHOLD_CROSSING (R510): the level has held for 1 µs. With neither supply in range the standby domain stops. -/
def execSupplyThresholdCrossing (sup : Supply) (mv : Nat) (s : State) : Out :=
  let p := s.pwr
  let p1 := match sup with
    | .v54 => { p with in54 := inRange 47000 45000 62000 61000 p.in54 p.v54 mv, v54 := mv }
    | .v12 => { p with in12 := inRange 11000 10500 13500 13200 p.in12 p.v12 mv, v12 := mv }
  let s1 := { s with pwr := p1 }
  .next (if !p1.in54 && !p1.in12 then if p.in54 || p.in12 then s1.partReset else s1
    else if p.in54 && !p1.in54 then s1.mainStop (if mv < 45000 then 1 else 2) 0
    else s1.endStopping.riseMain)

/-! ### The pace loop (13 R515 to R521) -/

/-- A hall whose regulator runs and whose pace loop runs with it. -/
def Hall.powered (h : Hall) : Bool := h.st = .idle || h.st = .running || h.st = .testing

/-- The least count of the monitors that the configuration block does not mark defective. -/
def State.cMin (s : State) (ph : Nat) (counts : List Nat) : Option Nat :=
  ((counts.zipIdx.filter (fun x => !SMap.get false s.cfg.defect (256 * ph + x.2))).map (fun x => x.1)).min?

/-- The settled vcode of a pace point remembered. Log 61 (DEDUCED). -/
def HallPwr.settle (p : HallPwr) (pace : Nat) : HallPwr :=
  { p with settled := ((p.settled ++ List.replicate (3 - p.settled.length) 0xFF).set pace p.vcode) }

/-- The controller's move on one sample: `n` is the target count N(p), `c` is c_min. -/
def HallPwr.sample (p : HallPwr) (pace n c : Nat) : HallPwr :=
  let short := if c < n && p.vcode.toNat = 160 then p.short + 1 else 0
  let hi := if n + 6 ≤ c then p.hi + 1 else 0
  let d : Int := (c : Int) - n
  let q := { p with short, hi, margin := BitVec.ofInt 8 (max (-128) (min 127 d)) }
  if c < n + 2 then { q with vcode := BitVec.ofNat 8 (min 160 (p.vcode.toNat + 1)) }
  else if 16 ≤ hi && !p.boost then ({ q with vcode := BitVec.ofNat 8 (p.vcode.toNat - 1), hi := 0 }).settle pace
  else q.settle pace

/-- PACE_LOOP_SAMPLE (R518): `counts` are the traversals that the monitors report, in order of monitor; samples come 64 treads apart
(R517). Log 118 (DEDUCED). -/
def execPaceLoopSample (ph : Fin 64) (counts : List Nat) (s : State) : Out :=
  let h := s.hall ph.val
  match s.cMin ph.val counts with
  | none => .next s
  | some c =>
    if h.powered && s.mainOn then
      let p := h.reg.pace.toNat
      let s1 := s.waitUntil h.pwr.sampleAt
      if s1.now < h.pwr.sampleAt then .next s1
      else
        .next (s1.updHall ph.val (fun h => { h with pwr :=
          { h.pwr.sample p (SMap.get 0 s.cfg.target (ph.val * 4 + p)) c with sampleAt := s1.now + 64 } }))
    else .next s

/-- BOOST_APPLY (R519): a requested boost raises vcode by 10, not above 160; a request made while a boost is in force raises
nothing. -/
def execBoostApply (ph : Fin 64) (s : State) : Out :=
  let h := s.hall ph.val
  match h.pwr.boostAsked with
  | none => .next s
  | some _ =>
    let s1 := s.updHall ph.val (fun h => { h with pwr := { h.pwr with boostAsked := none } })
    .next (if h.pwr.boost || !h.powered then s1
      else
        let s2 := s1.updHall ph.val (fun h => { h with pwr := { h.pwr with
          boost := true, vcode := BitVec.ofNat 8 (min 160 (h.pwr.vcode.toNat + 10)) } })
        { s2 with pwr := { s2.pwr with boosts := satInc s2.pwr.boosts } })

/-! ### Regulator failure (12 R500) -/

/-- Entries on their way to a hall, or held for it, are discarded. -/
def State.discardTo (s : State) (ph : Nat) : State :=
  let x := s.xport
  let alc := (List.range 4).foldl (fun m side =>
    match alcoveNbr ph side with
    | none => m
    | some n => SMap.set [] m (alcoveKey n (oppSide side)) []) x.alcove
  let stw := (List.range 4).foldl (fun m d => SMap.set [] m (stairKey ph d) []) x.stair
  let other := fun (l : StwLine) => match l.dest with
    | .hall q _ => decide (q ≠ ph)
    | _ => true
  { s with xport := { x with alcove := alc, stair := stw, waiting := x.waiting.filter other, flying := x.flying.filter other } }

/-- A hall withdrawn at once for its regulator: its record, the fence notice, and what it held or awaited. -/
def State.failHall (s : State) (ph mv : Nat) : State :=
  let h := s.hall ph
  if !s.mainOn || h.pwr.failed || !(h.powered || h.st = .waking || h.st = .withdrawn) then s
  else
    let sl := h.mapped
    let s1 := (s.discardTo ph).updHall ph (fun h => ({ h with
      st := .withdrawn, iss := {}
      pwr := { h.pwr with failed := true, vcode := 0, boost := false, boostAsked := none, wakeAt := none, stamp := none } }).dropHeads)
    let s2 := s1.each (List.range 16) (fun s g => s.updGal (galIdx ph g) (fun x =>
      { x with inflight := [], pend := [], rx := [], walk := none, scrubbing := false }))
    let s3 := s2.undefine (storeAddr (galIdx ph 0) 0) (storeAddr (galIdx ph 0) 0 + 0x2000000)
    let q := s3.flt.seq
    let s4 := s3.raise { cause := 0x020C, src := srcHall ph, ph := BitVec.ofNat 8 ph, slice := sl, errs := sl.toList, cls := 5
                         detail := BitVec.ofNat 64 (mv % 65536) }
    let r := if s4.flt.seq = q then none else some s4.flt.last
    (s4.notice 0x02 (BitVec.ofNat 64 ph) sl.toList r).reportHealth r

/-- REGULATOR_FAILURE (R500). See 03 R124. -/
def execRegulatorFailure (ph : Fin 64) (_why : RegFailure) (mv : BitVec 16) (s : State) : Out := .next (s.failHall ph.val mv.toNat)

/-- PACE_SHORTFALL (R521): c_min below N(p) for 256 samples with vcode at 160. The output voltage is a free value. -/
def execPaceShortfall (ph : Fin 64) (s : State) : Out :=
  if 256 ≤ (s.hall ph.val).pwr.short then
    let n := s.freeCtr + 1
    .next (({ s with freeCtr := n }).failHall ph.val (Config.measured 4 n))
  else .next s

/-! ### Sleep and the staircase wake (13 R522, R523) -/

/-- The bit of hall `ph` in a request word. -/
def phBit (ph : Nat) : BitVec 64 := BitVec.ofNat 64 (2 ^ ph)

/-- A wake request for one hall. -/
def State.askWake (s : State) (ph : Nat) : State :=
  let st := (s.hall ph).st
  if st = .absent || st = .withdrawn then s
  else if s.pwr.sleep.getLsbD ph then { s with pwr := { s.pwr with sleep := s.pwr.sleep &&& ~~~(phBit ph) } }
  else if st = .asleep then { s with pwr := { s.pwr with wake := s.pwr.wake ||| phBit ph } }
  else s

/-- A sleep request for one hall. One that is asleep already has nothing to wait for. Log 63 (DEDUCED). -/
def State.askSleep (s : State) (ph : Nat) : State :=
  let st := (s.hall ph).st
  if st = .absent || st = .withdrawn then s
  else if s.pwr.wake.getLsbD ph then { s with pwr := { s.pwr with wake := s.pwr.wake &&& ~~~(phBit ph) } }
  else if st = .asleep then s
  else { s with pwr := { s.pwr with sleep := s.pwr.sleep ||| phBit ph } }

/-- The halls whose bits a request word sets. -/
def askedHalls (hi : Bool) (v : Word) : List Nat :=
  ((List.range 32).filter (fun i => v.getLsbD i)).map (fun i => if hi then 32 + i else i)

/-- WAKE_REQUEST (R522). -/
def execWakeRequest (hi : Bool) (value : Word) (s : State) : Out := .next (s.each (askedHalls hi value) State.askWake)

/-- SLEEP_REQUEST (R522). -/
def execSleepRequest (hi : Bool) (value : Word) (s : State) : Out := .next (s.each (askedHalls hi value) State.askSleep)

/-- A hall begins to wake: its regulator rises within 1,600 treads, and the scrub takes 2,560 more (R523). -/
def State.beginWake (s : State) (ph : Nat) : State :=
  let s1 := { s with pwr := { s.pwr with wake := s.pwr.wake &&& ~~~(phBit ph), wakes := satInc s.pwr.wakes } }
  s1.updHall ph (fun h => { h with
    st := .waking, pwr := { h.pwr with vcode := s.settledVcode ph 0, wakeAt := some (s.now + 4160), stamp := none } })

/-- WAKE_GROUP_START (R523): up to 4 pending halls in ascending pH, no earlier than 4,000 treads after the group before. -/
def execWakeGroupStart (s : State) : Out :=
  let g := ((List.range 64).filter (fun ph => s.pwr.wake.getLsbD ph && (s.hall ph).st = .asleep)).take 4
  if g.isEmpty || !s.mainOn then .next s
  else
    let t := match s.pwr.lastGroup with | some t => t + 4000 | none => 0
    let s1 := s.waitUntil t
    if s1.now < t then .next s1
    else .next (({ s1 with pwr := { s1.pwr with lastGroup := some s1.now } }).each g State.beginWake)

/-- HALL_SCRUB_COMPLETE (06 R266): every store line is zeros with fresh check bits; the hall is stamped for its admission. -/
def execHallScrubComplete (ph : Fin 64) (s : State) : Out :=
  let h := s.hall ph.val
  match h.pwr.wakeAt with
  | none => .next s
  | some t =>
    if h.st ≠ .waking || h.pwr.stamp.isSome then .next s
    else
      let s1 := s.waitUntil t
      if s1.now < t then .next s1
      else
        let st := s1.stampOf ph.val
        let s2 := s1.each (List.range 16) (fun s g => s.scrubStore (galIdx ph.val g))
        .next (s2.updHall ph.val (fun h => { h with pwr := { h.pwr with stamp := some st, wakeAt := none } }))

/-! ### The limiter's windows (13 R524, R525) -/

/-- POWER_WINDOW (R524): at the next multiple of 200 in TREAD; estimates of windows that no budget looks at any more go. Log 36 (DEDUCED). -/
def execPowerWindow (s : State) : Out :=
  let s1 := s.waitUntil ((s.now + 199) / 200 * 200)
  let w := s1.now / 200
  .next { s1 with pwr := { s1.pwr with window := w, spent := s1.pwr.spent.filter (fun e => w ≤ e.1 + 8) } }

/-! ### Temperatures (13 R528, R530; 06 R260) -/

/-- A thermal trip where some source of the list has reached 110 °C: one of those that have is recorded, which one
free. Log 62 (DESIGN CHOICE). -/
def State.trip (s : State) (l : List (Nat × Nat)) : State :=
  match oneOf [62, s.now] (l.filter (fun x => 110 ≤ x.2)) with
  | some x => s.mainStop 3 (BitVec.ofNat 8 x.1)
  | none => s

/-- Readings by source, from number `n`. -/
def sources (n : Nat) (l : List Nat) : List (Nat × Nat) := l.zipIdx.map (fun x => (n + x.2, x.1))

/-- The telemetry of halls and supplies that crosses with the sensors every 1,600 treads (R536, Table 13.6): free values. Log 60 (DESIGN CHOICE). -/
def State.telemetry (s : State) : State :=
  let n := s.freeCtr + 1
  let m := fun (w : Nat) => Config.measured w n
  let s1 := s.each (List.range 64) (fun s ph => if (s.hall ph).powered then
      s.updHall ph (fun h => { h with pwr := { h.pwr with iout := BitVec.ofNat 8 (m (64 + ph)) } })
    else s)
  { s1 with freeCtr := n, pwr := { s1.pwr with
      vin := BitVec.ofNat 16 (m 0), iin := BitVec.ofNat 16 (m 1), pin := BitVec.ofNat 16 (m 2) } }

/-- The readings taken (R528): of the atrium alone while the main domain has no power. -/
def State.takeTemps (s : State) (t : Temps) : State :=
  let byte := fun (n : Nat) => BitVec.ofNat 8 (min n 255)
  let s1 := { s with pwr := { s.pwr with atrTemp := t.atrium, sensorAt := s.now + 1600 } }
  if s.mainOn then
    let hs := (sources 0 (t.halls.take 64)).filter (fun x => (s.hall x.1).st != .absent)
    let as_ := (sources 64 (t.arcades.take 5)).filter (fun x => x.1 < 64 + arcadesOf s.cfg.grade)
    let s2 := s1.each hs (fun s x => s.updHall x.1 (fun h => { h with pwr := { h.pwr with temp := byte x.2 } }))
    let s3 := { s2 with pwr := { s2.pwr with arcTemp := as_.foldl (fun m (x : Nat × Nat) => SMap.set 0 m (x.1 - 64) x.2) s2.pwr.arcTemp } }
    s3.telemetry.trip (hs ++ as_ ++ [(69, t.atrium)])
  else s1.telemetry.trip [(69, t.atrium)]

/-- THERMAL_SENSOR_READ (R528): every 1,600 treads. Log 118 (DEDUCED). -/
def execThermalSensorRead (t : Temps) (s : State) : Out :=
  let s1 := s.waitUntil s.pwr.sensorAt
  .next (if s1.now < s.pwr.sensorAt then s1 else s1.takeTemps t)

/-- The band after a reading of `t` °C (06 R260): hotter above a lower edge, cooler 2 °C below the edge left. -/
def nextBand (band : BitVec 2) (t : Nat) : BitVec 2 :=
  let hot := if band = 2 then decide (93 < t) else decide (95 < t)
  let warm := if band = 0 then decide (85 < t) else decide (83 < t)
  if hot then 2 else if warm then 1 else 0

/-- STACK_TEMPERATURE_READ (06 R260): at the next multiple of 16,384 in TREAD; 110 °C trips (R530). -/
def execStackTemperatureRead (stack : Fin 14) (temp : Nat) (s : State) : Out :=
  let c := stack.val
  if !s.hasStack c then .fault .absentUnit
  else if !s.mainOn then .next s
  else
    let s1 := s.waitUntil ((s.now + 16383) / 16384 * 16384)
    .next ((s1.updMc c (fun m => { m with temp, band := nextBand m.band temp })).trip [(70 + siteOfStack c, temp)])

/-! ### The rack reference (13 R532 to R535, 02 R37) -/

/-- REFERENCE_LOST (R532): the counter freewheels; a record and notice 0x07. See 13 R533. -/
def execReferenceLost (s : State) : Out :=
  if s.tim.refLost || !s.clk.running then .next s
  else
    let s1 := { s with tim := { s.tim with refLost := true, lostSeen := true, locked := false } }
    let s2 := s1.each s1.admitted (fun s k => s.updSl k (fun x => { x with refLost := true, tel := { x.tel with refLost := true } }))
    .next (s2.raiseNotice { cause := 0x020D } 0x07 0 s2.admitted)

/-- The counter is locked to the reference; the offset of the oscillator has been measured. -/
def State.lock (s : State) : State :=
  let n := s.freeCtr + 1
  { s with freeCtr := n
           tim := { s.tim with refLost := false, locked := true, everLocked := true, ofs := BitVec.ofNat 16 (Config.measured 3 n) } }

/-- REFERENCE_TAKEN_BACK (R534): lost_seen stays. -/
def execReferenceTakenBack (s : State) : Out := .next (if s.tim.refLost then s.lock else s)

end Sys2Proof.Machine
end

