-- ==== Sys2Proof/Machine/Time.lean ====
section
/-! DEFINITION. Time bases, captures and pulses, and the tenant telemetry record (14 R557 to R563).
-/
namespace Sys2Proof.Machine

/-! ### The bases (14 Table 14.9, R559) -/

/-- What TB1 (key 0) or TB2 (key 1) reads: base + d + floor(d × rate / 2^40), with d = TB3 − anchor. -/
def State.wall (s : State) (b : Nat) : Word64 :=
  let d := s.clk.tb3 - SMap.get 0 s.tim.anchor b
  SMap.get 0 s.tim.base b + d + BitVec.ofInt 64 ((d.toNat : Int) * (SMap.get 0 s.tim.rate b).toInt / 2 ^ 40)

/-- What time base `i`, 0 to 3, reads. -/
def State.timeBase (s : State) (i : Nat) : Word64 :=
  match i with
  | 0 => s.clk.tread
  | 1 => s.wall 0
  | 2 => s.wall 1
  | _ => s.clk.tb3

/-- A write of TIM_TB_RATE of base `b`: the value does not step. -/
def State.setRate (s : State) (b : Nat) (v : Word) : State :=
  { s with tim := { s.tim with
      base := SMap.set 0 s.tim.base b (s.wall b), anchor := SMap.set 0 s.tim.anchor b s.clk.tb3
      rate := SMap.set 0 s.tim.rate b v } }

/-- A write of TIM_TB_STEP_HI: the signed step is added to the base. -/
def State.applyStep (s : State) (b : Nat) (v : Word) : State :=
  { s with tim := { s.tim with
      stepHi := SMap.set 0 s.tim.stepHi b v
      base := SMap.upd 0 s.tim.base b (fun x => x + (v ++ SMap.get 0 s.tim.stepLo b)) } }

/-- TIM_TB_RATE_WRITE (R559); `b` is 0 for TB1, 1 for TB2. -/
def execTimTbRateWrite (b : Fin 2) (value : Word) (s : State) : Out := .next (s.setRate b.val value)

/-- TIM_TB_STEP_WRITE (R559). -/
def execTimTbStepWrite (b : Fin 2) (value : Word) (s : State) : Out := .next (s.applyStep b.val value)

/-- A capture of TB0 to TB3 at one instant (R560). -/
def State.capture (s : State) : State :=
  { s with tim := { s.tim with
      snap := (List.range 4).foldl (fun m i => SMap.set 0 m i (s.timeBase i)) s.tim.snap
      snapSeq := s.tim.snapSeq + 1 } }

/-- TIM_SNAP_TAKE (R560): only a 1 captures. -/
def execTimSnapTake (value : Word) (s : State) : Out := .next (if value.getLsbD 0 then s.capture else s)

/-! ### Waiting for a base -/

/-- The state at TB3 `t`, or unchanged when that tick has come: as many treads pass as it takes. -/
def State.waitTb3 (s : State) (t : Nat) : State :=
  let n := s.clk.tb3.toNat
  if n < t then s.passTreads ((8 * (t - n) - s.clk.frac + 4) / 5) else s

/-- Ticks of TB3 past the anchor at which TB1 or TB2 has advanced by `x`: the least d with d + floor(d × rate / 2^40) ≥ x. -/
def wallTicks (rate : Int) (x : Nat) : Nat :=
  let u := (2 ^ 40 + rate).toNat
  (x * 2 ^ 40 + u - 1) / u

/-- The state once time base `i` has reached `t`. -/
def State.waitBase (s : State) (i t : Nat) : State :=
  match i with
  | 0 => s.waitUntil t
  | 3 => s.waitTb3 t
  | j =>
    let b := j - 1
    if t ≤ (s.timeBase j).toNat then s
    else s.waitTb3 ((SMap.get 0 s.tim.anchor b).toNat
      + wallTicks (SMap.get 0 s.tim.rate b).toInt (t - (SMap.get 0 s.tim.base b).toNat))

/-! ### Pulses (R562, R563) -/

def State.pulse (s : State) (n : Nat) : Pulse := SMap.get {} s.tim.pulses n
def State.setPulse (s : State) (n : Nat) (p : Pulse) : State := { s with tim := { s.tim with pulses := SMap.set {} s.tim.pulses n p } }

/-- A period that Table 14.13's rule reserves: no longer than width × 8 ns + 16 ns. Log 68 (DEDUCED). -/
def Pulse.badPer (p : Pulse) : Bool := p.per.toNat ≤ 8 * p.width.toNat + 16

/-- The pending time after a pulse at base value `now`: the first T + m × period beyond it. -/
def Pulse.after (p : Pulse) (now : Nat) : Word64 :=
  p.next + p.per * BitVec.ofNat 64 ((now - p.next.toNat) / p.per.toNat + 1)

/-- The pin is high. -/
def State.pinHigh (s : State) (n : Nat) : Bool :=
  match (s.pulse n).edge with
  | none => false
  | some t => decide ((s.clk.tb3 - t).toNat < 8 * (s.pulse n).width.toNat)

/-- TPULSE (R562): when its base reaches or has passed the pending time, the pin rises. -/
def execTpulse (n : Fin 4) (s : State) : Out :=
  let p := s.pulse n.val
  if !p.en then .next s
  else
    let s1 := s.waitBase p.base.toNat p.next.toNat
    let now := (s1.timeBase p.base.toNat).toNat
    if now < p.next.toNat then .next s1
    else
      let q := { p with edge := some s1.clk.tb3, pulses := p.pulses + 1 }
      .next (s1.setPulse n.val (if p.mode then { q with next := p.after now } else { q with en := false }))

/-! ### Tenant telemetry (R557) -/

/-- The 64 bytes of Table 14.8 for queue `n` with sequence number `seq`; the input power is a free value. -/
def State.telemetryBytes (s : State) (n : Nat) (seq : Word) (power : Nat) : List Byte :=
  let k := (s.queue n).slice.toNat
  let t := (s.sl k).tel
  bvBytes 4 seq ++ leBytes 2 (power / 50) ++ [(s.queue n).slice, 0] ++ bvBytes 4 t.lastOrd ++ bvBytes 4 t.holds
    ++ bvBytes 8 t.holdTreads ++ bvBytes 8 t.stretches ++ bvBytes 4 t.commits ++ bvBytes 4 t.aborts ++ bvBytes 2 t.lag
    ++ zeros 18 ++ bvBytes 4 seq

/-- TENANT_TELEMETRY_WRITE (R557): every 10^9 counts of TB3, for a queue with SEC_TEN_LO.en set. -/
def execTenantTelemetryWrite (q : Fin 16) (s : State) : Out :=
  let x := s.queue q.val
  if q.val = 0 || !x.tenLo.getLsbD 0 then .next s
  else
    let s1 := s.waitTb3 x.tenAt
    let c := s1.freeCtr + 1
    let a := (x.tenHi ++ x.tenLo).toNat / 64 * 64
    let s2 := s1.hostWrite a (s1.telemetryBytes q.val x.tenSeq (Config.measured 2 c))
    .next (({ s2 with freeCtr := c }).updQueue q.val (fun x =>
      { x with tenSeq := x.tenSeq + 1, tenAt := s1.clk.tb3.toNat + 1000000000 }))

end Sys2Proof.Machine
end

