-- ==== Sys2Proof/Machine/Boot.lean ====
section
/-! DEFINITION. Boot, the resets and the steward's restarts (14 R542 to R548, R553 to R555; 01 R22, R23; 06 R269; 11 R480;
13 R535; 15 Table 15.11; 16 R610, R611).
-/
namespace Sys2Proof.Machine

/-! ### The seal (R553) -/

/-- An open seal loop latches the break in the sealed record; an open loop already latched changes nothing more. -/
def State.breakSeal (s : State) : State :=
  if s.sec.flash.sealBroken then s
  else
    let s1 := { s with sec := { s.sec with
      alert := s.sec.alert ||| 4
      flash := { s.sec.flash with sealBroken := true, counter := s.sec.flash.counter + 1 } } }
    s1.raiseNotice { cause := 0x0301 } 0x0A 0 []

/-- SEAL_BREAK (R553): sensed while either supply is in range. -/
def execSealBreak (s : State) : Out :=
  let s1 := { s with pins := { s.pins with sealOpen := true } }
  .next (if s.pwr.in54 || s.pwr.in12 then s1.breakSeal else s1)

/-! ### Boot (R546, R547) -/

/-- ROM recovery: the steward does not start. -/
def State.romRecovery (s : State) : State := { s with sec := { s.sec with boot := 1, booted := true } }

/-- Straps sampled (R545), but for a part reset that is no release of RST_N. -/
def State.sampleStraps (s : State) (b : BootFind) : State :=
  if s.pins.strapsHeld then s
  else { s with pins := { s.pins with
    strapLinkmap := b.linkmapStrap, strapRole := b.roleStrap, strapFlashv := b.flashvStrap } }

/-- linkmap and PWR_CTL.main as the straps give them (07 R283, 14 R545). -/
def State.useStraps (s : State) : State :=
  { s with
    linkmap := if s.pins.strapLinkmap then 2 else if s.cfg.grade = .m then 1 else 0
    pwr := { s.pwr with main := !s.pins.strapRole } }

/-- A signed item that boot accepts: valid, and its root slot not revoked (R543). -/
def State.rootOk (s : State) (ok : Bool) (root : BitVec 2) : Bool := ok && !s.sec.flash.revoked.getLsbD root.toNat

/-- An image that boot accepts: at or above the floor as well (R546 step 5). -/
def State.imageOk (s : State) (ok : Bool) (root : BitVec 2) (ver : Word) : Bool :=
  s.rootOk ok root && decide (s.sec.flash.floor.toNat ≤ ver.toNat)

/-- The version that boot runs: of the active slot, else of the other; none where neither is accepted. -/
def State.pickImage (s : State) (b : BootFind) : Option (Bool × Word) :=
  let okA := s.imageOk b.slotA b.rootA b.verA
  let okB := s.imageOk b.slotB b.rootB b.verB
  if s.sec.flash.active then if okB then some (true, b.verB) else if okA then some (false, b.verA) else none
  else if okA then some (false, b.verA) else if okB then some (true, b.verB) else none

/-- Bytes that SMBus has written within a range of the flash. -/
def State.flashBytes (s : State) (lo hi : Nat) : List (Nat × Byte) := s.sec.flash.bytes.filter (fun e => lo ≤ e.1 && e.1 < hi)

/-- What the installation section holds, once written over by SMBus a free value. -/
def State.readInst (s : State) : Inst :=
  match s.flashBytes 0x100000 0x200000 with
  | [] => s.sec.flash.inst
  | l => Config.installOf l

/-- The installation section loaded, and its key pinned at the first boot; without a valid one the part has chip number 0xFFFF,
installation identifier 0 and no map (R544, Table 14.5). -/
def State.loadInst (s : State) (ok : Bool) : State :=
  let i := if ok then s.readInst else { smbAddr := s.cfg.smbAddr }
  { s with
    cfg := { s.cfg with chip := i.chip, install := i.install, ex := i.ex, ey := i.ey, ez := i.ez
                        smbAddr := if ok then i.smbAddr else 0x4C
                        map := i.map.foldl (fun m e => SMap.set (0, 0, 0, 0) m e.1 e.2) [] }
    sec := { s.sec with instOk := ok, flash := { s.sec.flash with
      pinned := s.sec.flash.pinned || ok
      counter := if ok && !s.sec.flash.pinned then s.sec.flash.counter + 1 else s.sec.flash.counter } } }

/-- Boot steps 8 and 9 (R546): main power in normal role; the steward's part of step 9 comes once main power is on, or at once
where it is not to come on. See 07 R291. -/
def State.boot8 (s : State) : State :=
  if s.pins.strapRole || s.sec.noRecord then s.bootDone else s.riseMain

/-- TREAD starts at 0 (02 R30). -/
def State.startTread (s : State) : State := { s with clk := { s.clk with tread := 0, running := true } }

/-- The steward started: step 5's end to step 9. Without a reference, step 7 waits for one (R535). -/
def State.startSteward (s : State) (b : BootFind) (ver : Word) : State :=
  let s1 := { s with
    freeCtr := s.freeCtr + 1
    sec := { s.sec with boot := 2, booted := true, fwVer := ver, noRecord := !b.record, bootTag := s.freeCtr + 1 }
    foyer := { s.foyer with linkStat := Config.hostLink ++ 0#25 } }
  let s2 := s1.loadInst b.install
  if b.reference then s2.startTread.lock.boot8 else s2

/-- BOOT (R546): the standby domain has risen, or RST_N has been released; without a supply a release has no effect (R611).
A high STRAP_FLASHV leaves the flash unreadable (16 R599). Log 59 (DEDUCED). -/
def execBoot (b : BootFind) (s : State) : Out :=
  let s0 := { s with pins := { s.pins with rstLow := false } }
  if s.sec.booted || !(s.pwr.in54 || s.pwr.in12) then .next s0
  else
    let s1 := (s0.sampleStraps b).useStraps
    let s2 := { s1 with pins := { s1.pins with strapsHeld := false, sealOpen := s1.pins.sealOpen || b.sealOpen } }
    let s3 := if s2.pins.sealOpen then s2.breakSeal else s2
    if !b.flash || s3.pins.strapFlashv || !b.puf || !s3.rootOk b.factory b.rootF || (!b.identity && !s3.sec.flash.idReset) then .next s3.romRecovery
    else
      match s3.pickImage b with
      | none => .next s3.romRecovery
      | some (_, v) => .next (s3.startSteward b v)

/-- BOOT_REFERENCE_TIMEOUT (13 R535): 100 ms without a reference; TREAD starts on the oscillator, and boot goes on. -/
def execBootReferenceTimeout (s : State) : Out :=
  if s.sec.boot ≠ 2 || s.clk.running then .next s
  else
    let s1 := (s.waitTb3 (s.clk.tb3.toNat + 100000000)).startTread
    let s2 := { s1 with tim := { s1.tim with refLost := true, lostSeen := true, locked := false } }
    .next ((s2.raise { cause := 0x020D }).boot8)

/-! ### Resets (Table 15.11) -/

/-- RST_N_ASSERT (16 R610): held in part reset until the release. -/
def execRstNAssert (s : State) : Out := .next (({ s with pins := { s.pins with rstLow := true } }).partReset)

/-- A part reset that the part makes itself: the straps are not sampled again (R545). -/
def State.selfReset (s : State) : State :=
  let s1 := s.partReset
  { s1 with pins := { s1.pins with strapsHeld := true } }

/-- A transfer that a compute reset ends: status cancelled, with the bytes moved before (11 R480). -/
def State.cancelXfer (s : State) (h : DescHdr) (op : Byte) (d : DmaDesc) (started : Bool) : State :=
  if started then
    let n := s.freeCtr + 1
    ((({ s with freeCtr := n }).spoil op d)).finishXfer h op d 0x000F (Config.movedBytes n) none
  else s.finishXfer h op d 0x000F 0 none

/-- Every transfer ended (11 R480): each has its part side in HBM or in a gallery store. -/
def State.cancelAll (s : State) : State :=
  let s1 := s.each (List.range 16) (fun s c =>
    let js := (s.chan c).jobs
    let s1 := s.updChan c (fun x => { x with act := none, shd := none, wait := [], status := if js.isEmpty then x.status else 0x000F })
    s1.each js (fun s j => s.cancelXfer j.hdr j.op j.d j.started))
  let st := s1.foyer.stor
  ({ s1 with foyer := { s1.foyer with stor := [] } }).each st (fun s j => s.cancelXfer j.hdr j.op j.d (!j.gated))

/-- A memory controller after a compute reset: poison list, regions, selectors, scrub settings, temperature and band stay
(06 R269, 15 Table 15.11). -/
def MemCtl.computeReset (m : MemCtl) : MemCtl :=
  { plist := m.plist, unusable := m.unusable, temp := m.temp, band := m.band
    scrubEn := m.scrubEn, scrubInt := m.scrubInt, scrubPend := m.scrubPend
    cregs := m.cregs.foldl (fun x e => SMap.set {} x e.1 { e.2 with armed := false, wcnt := 0 }) [] }

/-- A resident flight after a compute reset: its counts and what its controllers held are gone, and its halls do not run it. -/
def Flight.computeReset (f : Flight) : Flight :=
  { f with received := 0, segsIn := [], offHalls := if f.run.isSome then f.shares.map (fun x => x.vh.toNat) else f.offHalls }

/-- COMPUTE_RESET (R23, R269): the compute dies and the arcade-side ends of their stairwells. See 07 R309; 08 R365; 09 R409; 12 R508; 15 R585. Log 64 (DEDUCED). -/
def State.computeReset (s : State) : State :=
  let hit := s.admitted.filter (fun k => (s.hallsOf k).any (fun ph => (s.hall ph).st = .running))
  let s1 := s.cancelAll
  let s2 := { s1 with
    xport := {}
    unseen := []
    mcs := s1.mcs.foldl (fun m (e : Nat × MemCtl) => SMap.set {} m e.1 e.2.computeReset) []
    flights := s1.flights.map (fun (e : Nat × Option Flight) => (e.1, e.2.map Flight.computeReset))
    stair := {}
    upsets := s1.upsets.filter (fun u => match u.site with | .hbm _ _ => true | _ => false)
    flt := { s1.flt with xing := [] } }
  let s3 := (s2.resetHalls true).reportHealth none
  (s3.each hit (fun s k => s.notRunning k)).publish

/-- COMPUTE_RESET (R269): the steward makes it. -/
def execComputeReset (s : State) : Out := .next (if s.sec.boot = 2 then s.computeReset else s)

/-! ### Restarts of the steward (R554, R555) -/

/-- The four cores restart; a third restart within 10^9 counts of TB3 leaves the steward stopped. `tb3` is TB3 at the last
service of the watchdog. Log 65 (DEDUCED). Log 66 (DEDUCED). -/
def State.restartSteward (s : State) (why : BitVec 2) (tb3 : Word) : State :=
  if s.sec.boot ≠ 2 then s
  else
    let ks := s.admitted
    let s1 := s.raise { cause := 0x0211, errs := ks, cls := 6, detail := tb3.zeroExtend 64
                        slice := match ks with | [k] => some k | _ => none }
    let s2 := s1.each ks (fun s k => s.updSl k (fun x => { x with err := { x.err with wdog := true } }))
    let now := s2.clk.tb3.toNat
    let at_ := (s2.sec.restartAt.filter (fun t => now < t + 1000000000)) ++ [now]
    let stop := decide (3 ≤ at_.length)
    ({ s2 with sec := { s2.sec with
        alert := s2.sec.alert ||| 0x10, restarts := satInc s2.sec.restarts, lastCause := why, restartAt := at_
        presence := 0, stopped := stop, boot := if stop then 1 else 2 } }).endSave

/-- WATCHDOG_EXPIRY (R554): 200 µs without service. -/
def execWatchdogExpiry (_core : Fin 4) (s : State) : Out :=
  .next (s.restartSteward 1 (BitVec.ofNat 32 ((s.clk.tb3 - 200000).toNat)))

/-- STEWARD_MEMORY_UNCORRECTABLE (R554): the TB3 of the last service is a free value. -/
def execStewardMemoryUncorrectable (s : State) : Out :=
  let n := s.freeCtr + 1
  .next (({ s with freeCtr := n }).restartSteward 2 (BitVec.ofNat 32 (Config.measured 5 n)))

end Sys2Proof.Machine
end

