-- ==== Sys2Proof/Machine/RegMap.lean ====
section
/-! DEFINITION. The registers of set-up space (15): their names, their places (Tables 15.1 to 15.4), and what each reads as.
-/
namespace Sys2Proof.Machine

/-- The registers (15 Tables 15.2 to 15.4). `hi` is the high half of a _LO and _HI pair; TB1 and TB2 have index 0 and 1; links have
index 2p + h, contexts 64p + n. `cnt` numbers run in the order of the offsets. -/
inductive RegId where
  | atrChip | atrInstall | atrHealth | atrPart | atrAlert | atrWdog | atrXing | atrResend
  | foyLink | foyPoll | foyDb (hi : Bool) | qCfg (n : Nat) | qChm (n : Nat) | qBase (n : Nat) (cq hi : Bool) | qStat (n : Nat)
  | winBase (n w : Nat) | winLen (n w : Nat)
  | dmaCfg (c : Nat) | dmaStat (c : Nat) | dmaSet (c : Nat) (shd : Bool) (i : Nat)
  | pwrStat | pwrCtl | pwrIn | pwrWake (hi : Bool) | pwrSleep (hi : Bool) | pwrTherm | pwrEvt | pwrWakes | pwrBoosts
  | pwrHall (ph : Nat)
  | timRef | timSnap | timHold | timHoldTreads (hi : Bool) | lrecBase | lrecSize | tbSnap (b : Nat) (hi : Bool)
  | tbRate (b : Nat) | tbStepLo (b : Nat) | tbStepHi (b : Nat) | pulseCtl (n : Nat) | pulseT (n : Nat) (hi : Bool)
  | pulsePer (n : Nat) (hi : Bool) | idleGap (k : Nat) | idleW (k : Nat) | slice (k i : Nat)
  | secStat | secVer | secFloor | ten (n : Nat) (hi : Bool)
  | fltCfg | fltRingBase | fltRingCtl | fltSaveCtl | fltSaveOrd | fltSaveBase | fltResume (hi : Bool) | fltCnt (i : Nat)
  | fltErr (k : Nat) | fltEpoch (k : Nat)
  | memStat (c : Nat) | memRef (c : Nat) | memUrgent (c : Nat) | memErr (c : Nat) (hi : Bool) | memScrub (c : Nat) | memLag (c : Nat)
  | cregBase (c k : Nat) | cregLen (c k : Nat) | cregStat (c k : Nat) | cregWcnt (c k : Nat)
  | halStat (ph : Nat) | halGal (ph : Nat) | halVmap (ph : Nat) | halMode (ph : Nat) | halPace (ph : Nat) | halScrub (ph : Nat)
  | halCnt (ph i : Nat) | galErr (gi : Nat) | galArith (gi : Nat)
  | arcGlobal | redLines (a : Nat) (hi : Bool) | portCtl (p : Nat) | nbrId (p h : Nat) | nbrStat (p h : Nat) | linkCfg (p h : Nat)
  | linkStat (p h : Nat) | linkCnt (l i : Nat) | spare (p : Nat) | laneSym (p i : Nat) | ctxA (c : Nat) | ctxB (c : Nat)
  | ctxLag (c : Nat) | ctxMiss (c : Nat) | ctxFilter (c : Nat)
  deriving DecidableEq, Repr

/-! ### Places -/

/-- The registers at fixed offsets of a block. See 15 R578. -/
def fixedReg (l : List (Nat × RegId)) (o : Nat) : Option RegId := (l.find? (fun x => x.1 = o)).map (fun x => x.2)

/-- A register of an array: `n` entries from `base`, `stride` apart; `f` takes the index and the offset within the entry. See 15 R578. -/
def arrayReg (base stride first n : Nat) (f : Nat → Nat → Option RegId) (o : Nat) : Option RegId :=
  if base ≤ o ∧ (o - base) / stride < n then f (first + (o - base) / stride) ((o - base) % stride) else none

def atrReg : Nat → Option RegId :=
  fixedReg [(0, .atrChip), (4, .atrInstall), (8, .atrHealth), (12, .atrPart), (16, .atrAlert), (20, .atrWdog), (24, .atrXing),
    (28, .atrResend)]

def foyReg (o : Nat) : Option RegId :=
  (fixedReg [(0, .foyLink), (4, .foyPoll), (8, .foyDb false), (12, .foyDb true)] o).or
    (arrayReg 0x100 0x40 0 16 (fun n r =>
      (fixedReg [(0, .qCfg n), (4, .qChm n), (8, .qBase n false false), (12, .qBase n false true), (16, .qBase n true false),
        (20, .qBase n true true), (24, .qStat n)] r).or
      (arrayReg 0x20 8 0 4 (fun w r => fixedReg [(0, .winBase n w), (4, .winLen n w)] r) r)) o)

def dmaReg (o : Nat) : Option RegId :=
  arrayReg 0 0x100 0 16 (fun c r =>
    if r = 0 then some (.dmaCfg c) else if r = 4 then some (.dmaStat c)
    else if r % 4 = 0 ∧ 0x40 ≤ r ∧ r < 0x60 then some (.dmaSet c false ((r - 0x40) / 4))
    else if r % 4 = 0 ∧ 0x80 ≤ r ∧ r < 0xA0 then some (.dmaSet c true ((r - 0x80) / 4)) else none) o

def pwrReg (o : Nat) : Option RegId :=
  (fixedReg [(0, .pwrStat), (4, .pwrCtl), (8, .pwrIn), (0x10, .pwrWake false), (0x14, .pwrWake true), (0x18, .pwrSleep false),
    (0x1C, .pwrSleep true), (0x20, .pwrTherm), (0x24, .pwrEvt), (0x30, .pwrWakes), (0x34, .pwrBoosts)] o).or
    (arrayReg 0x100 4 0 64 (fun ph r => if r = 0 then some (.pwrHall ph) else none) o)

def timReg (o : Nat) : Option RegId :=
  (fixedReg [(0, .timRef), (4, .timSnap), (8, .timHold), (0x10, .timHoldTreads false), (0x14, .timHoldTreads true),
    (0x18, .lrecBase), (0x1C, .lrecSize)] o).or <|
  (arrayReg 0x40 8 0 4 (fun b r => fixedReg [(0, .tbSnap b false), (4, .tbSnap b true)] r) o).or <|
  (arrayReg 0x60 0x10 0 2 (fun b r => fixedReg [(0, .tbRate b), (4, .tbStepLo b), (8, .tbStepHi b)] r) o).or <|
  (arrayReg 0x100 0x20 0 4 (fun n r => fixedReg [(0, .pulseCtl n), (4, .pulseT n false), (8, .pulseT n true),
    (12, .pulsePer n false), (16, .pulsePer n true)] r) o).or
  (arrayReg 0x1000 0x20 0 255 (fun k r =>
    (fixedReg [(0, .idleGap k), (4, .idleW k)] r).or
      (if r % 4 = 0 ∧ 8 ≤ r then some (.slice k ((r - 8) / 4)) else none)) o)

def secReg (o : Nat) : Option RegId :=
  (fixedReg [(0, .secStat), (4, .secVer), (8, .secFloor)] o).or
    (arrayReg 0x108 8 1 15 (fun n r => fixedReg [(0, .ten n false), (4, .ten n true)] r) o)

def fltReg (o : Nat) : Option RegId :=
  (fixedReg [(0, .fltCfg), (4, .fltRingBase), (8, .fltRingCtl), (12, .fltSaveCtl), (16, .fltSaveOrd), (20, .fltSaveBase),
    (24, .fltResume false), (28, .fltResume true)] o).or <|
  (arrayReg 0x20 4 0 6 (fun i r => if r = 0 then some (.fltCnt i) else none) o).or
  (arrayReg 0x1000 8 0 255 (fun k r => fixedReg [(0, .fltErr k), (4, .fltEpoch k)] r) o)

def memReg (c o : Nat) : Option RegId :=
  (fixedReg [(0, .memStat c), (4, .memRef c), (8, .memUrgent c), (12, .memErr c false), (16, .memErr c true), (20, .memScrub c),
    (24, .memLag c)] o).or
    (arrayReg 0x100 0x10 0 8 (fun k r => fixedReg [(0, .cregBase c k), (4, .cregLen c k), (8, .cregStat c k), (12, .cregWcnt c k)] r) o)

def halReg (ph o : Nat) : Option RegId :=
  (fixedReg [(0, .halStat ph), (4, .halGal ph), (8, .halVmap ph), (12, .halMode ph), (16, .halPace ph), (20, .halScrub ph)] o).or <|
  (arrayReg 0x40 4 0 19 (fun i r => if r = 0 then some (.halCnt ph i) else none) o).or <|
  (arrayReg 0x100 4 0 16 (fun g r => if r = 0 then some (.galErr (galIdx ph g)) else none) o).or
  (arrayReg 0x140 4 0 16 (fun g r => if r = 0 then some (.galArith (galIdx ph g)) else none) o)

/-- The counters of a link by their place in its group (15 Table 15.4). -/
def linkCntAt (r : Nat) : Option Nat :=
  ([0x10, 0x14, 0x18, 0x20, 0x24, 0x28, 0x2C, 0x30, 0x34, 0x38, 0x3C, 0x40, 0x44, 0x48, 0x4C, 0x50, 0x54]).findIdx? (fun x => x = r)

/-- A register of port `p`. Those of the h = 1 group of a port that is not bifurcated, and most of those of the higher-numbered
port of a bonded pair, are holes (R579). -/
def State.portReg (s : State) (p o : Nat) : Option RegId :=
  let low := s.lowPort p = p
  (fixedReg [(0, .portCtl p), (0x300, .spare p)] o).or <|
  (arrayReg 0x340 4 0 9 (fun i r => if r = 0 then some (.laneSym p i) else none) o).or <|
  (arrayReg 0x100 0x100 0 2 (fun h r =>
    if !s.hasLink p h then none
    else
      (fixedReg [(0, .nbrId p h), (4, .nbrStat p h), (12, .linkStat p h)] r).or
        (if low then (if r = 8 then some (.linkCfg p h) else (linkCntAt r).map (fun i => .linkCnt (2 * p + h) i)) else none)) o).or
  (if low then
    arrayReg 0x1000 0x20 0 64 (fun n r =>
      let c := 64 * p + n
      fixedReg [(0, .ctxA c), (4, .ctxB c), (8, .ctxLag c), (12, .ctxMiss c), (16, .ctxFilter c)] r) o
  else none)

/-- The register at a BAR0 offset, none in a hole (R571, Table 15.1). See 15 R577, R578. -/
def State.regAt (s : State) (off : Nat) : Option RegId :=
  let b := off / 0x10000
  let o := off % 0x10000
  if off % 4 ≠ 0 then none
  else if b = 0 then atrReg o else if b = 1 then foyReg o else if b = 2 then dmaReg o else if b = 3 then pwrReg o
  else if b = 4 then timReg o else if b = 5 then secReg o else if b = 6 then fltReg o
  else if 0x10 ≤ b ∧ b < 0x1E then if s.hasStack (b - 0x10) then memReg (b - 0x10) o else none
  else if 0x20 ≤ b ∧ b < 0x24 then halReg ((off - 0x200000) / 0x1000) (off % 0x1000)
  else if b = 0x30 then if o = 0 then some .arcGlobal else none
  else if b = 0x31 then
    let a := o / 0x1000
    if a < arcadesOf s.cfg.grade then fixedReg [(0, .redLines a false), (4, .redLines a true)] (o % 0x1000) else none
  else if 0x40 ≤ b ∧ b < 0x5E then if s.hasPort (b - 0x40) then s.portReg (b - 0x40) o else none
  else none

/-! ### Reads -/

/-- A register value from its fields, each with the place of its lowest bit. -/
def word (l : List (Nat × Nat)) : Word := BitVec.ofNat 32 (l.foldl (fun a x => a + x.2 * 2 ^ x.1) 0)

/-- A half of a 64-bit value (R572). See 15 R580. -/
def half (v : Word64) (hi : Bool) : Word := if hi then v.extractLsb' 32 32 else v.extractLsb' 0 32

/-- A bit as a number. -/
def bit (b : Bool) : Nat := b.toNat

def pubHall (s : State) (ph : Nat) : Hall := SMap.get {} s.pub.halls ph
def pubGal (s : State) (gi : Nat) : Gallery := SMap.get {} s.pub.gals gi
def pubMc (s : State) (c : Nat) : MemCtl := SMap.get {} s.pub.mcs c
def pubPort (s : State) (p : Nat) : Port := SMap.get {} s.pub.ports p
def pubLink (s : State) (l : Nat) : Link := SMap.get {} s.pub.links l
def pubCtx (s : State) (c : Nat) : Ctx := SMap.get {} s.pub.ctxs c

/-- The codes of the hall states (03 Table 03.1). -/
def HallSt.code : HallSt → Nat
  | .absent => 0
  | .asleep => 1
  | .waking => 2
  | .idle => 3
  | .running => 4
  | .withdrawn => 5
  | .testing => 6

def Grade.code : Grade → Nat
  | .m => 0
  | .b => 1
  | .n => 2

def Stepping.code : Stepping → Nat
  | .a0 => 0
  | .b0 => 1

/-- Seconds left for presence: 60 s of TB3 from the acceptance (14 R551). Log 71 (DEDUCED). -/
def State.presenceLeft (s : State) : Nat :=
  if s.sec.presence = 0 then 0 else (60000000000 - (s.clk.tb3.toNat - s.sec.presAt)) / 1000000000

/-- SEC_STAT (14 Table 14.13). -/
def State.secStat (s : State) : Word :=
  word [(31, bit s.sec.flash.sealBroken), (30, bit s.sec.debug), (29, bit s.sec.flash.idReset), (28, bit s.sec.noRecord),
    (24, s.sec.presence.toNat), (16, s.presenceLeft), (0, s.sec.boot.toNat)]

/-- A register of a DMA set (Table 15.9). See 15 R583. -/
def DmaJob.reg (j : DmaJob) (shd : Bool) (i : Nat) : Word :=
  match i with
  | 0 => half j.d.addr false
  | 1 => half j.d.addr true
  | 2 => half j.d.off false
  | 3 => half j.d.off true &&& 0xFFFF
  | 4 => j.d.len
  | 5 => if shd then 0 else j.done
  | 6 => j.hdr.tag
  | _ => word [(16, j.op.toNat), (12, j.hdr.queue.val), (10, j.d.crcMode.toNat), (9, bit j.gated), (8, bit j.d.tokEn),
      (0, j.retries.toNat)]

/-- The largest refresh debt of the 64 pseudo-channels. -/
def MemCtl.topDebt (m : MemCtl) : Int := (List.range 64).foldl (fun a p => max a (SMap.get 0 m.debt p)) (-8)

/-- The TIM_SLICE_ registers of a slice; 0 while it is not admitted (R581). Log 110 (DEDUCED). -/
def State.sliceReg (s : State) (k i : Nat) : Word :=
  let x := s.sl k
  if !x.admitted || !x.epochSet then 0
  else match i with
    | 0 => s.lastOrd k
    | 1 => half x.epoch false
    | 2 => half x.epoch true
    | 3 => half x.offset false
    | 4 => half x.offset true
    | _ => word [(31, 1), (30, bit (s.isMaster k)), (29, bit x.land.holdPend), (24, x.id.topo), (20, x.id.k), (0, x.id.pos)]

/-- The counters of a hall, by place from 0x040. See 15 R580. -/
def Hall.counter (h : Hall) (i : Nat) : Word :=
  let c := h.cnt
  match i with
  | 0 => c.lagMax ++ c.lagCur
  | 1 => c.own
  | 2 => c.wait
  | 3 => c.treads
  | 4 => c.boostReq
  | 5 => c.holds
  | 6 => half c.groups false
  | 7 => half c.groups true
  | 8 => c.launches
  | 9 => c.tokens
  | 10 => c.tokqMax.zeroExtend 32
  | 11 => c.headLate
  | 12 => half c.mmaRows false
  | 13 => half c.mmaRows true
  | 14 => c.corrCw
  | 15 => c.corrCcw
  | 16 => c.limStretch
  | 17 => c.limTreads
  | _ => c.thermIdle

/-- The counters of a link, in the order of their offsets. -/
def LinkCnt.reg (c : LinkCnt) (i : Nat) : Word :=
  match i with
  | 0 => c.tx
  | 1 => c.rx
  | 2 => c.drop
  | 3 => half c.idle false
  | 4 => half c.idle true
  | 5 => half c.fecCe false
  | 6 => half c.fecCe true
  | 7 => c.fecUe
  | 8 => c.hcrc
  | 9 => c.replay
  | 10 => c.dup
  | 11 => c.rto
  | 12 => c.ackbad
  | 13 => c.retrain
  | 14 => c.train
  | 15 => half c.pause false
  | _ => half c.pause true

/-- The galleries of a hall for which `f` holds, as bits. -/
def galBits (f : Nat → Bool) : Nat := (List.range 16).foldl (fun a g => a + bit (f g) * 2 ^ g) 0

/-- A gallery's fenced bit and suspect bit (03 Table 03.9). -/
def GalCond.fencedBit : GalCond → Bool
  | .fenced | .rejoining => true
  | .healthy | .suspect => false
def GalCond.suspectBit : GalCond → Bool
  | .suspect | .rejoining => true
  | .healthy | .fenced => false

/-- HAL_STAT (03 Table 03.8). See 03 R128. -/
def Hall.statReg (h : Hall) : Word :=
  word [(28, bit (h.st = .running)), (16, if h.st = .running then h.iss.flight else 0), (8, h.reg.pace.toNat),
    (7, bit h.pwr.boost), (0, h.st.code)]

/-- The neighbour entry that port `p`, link `h` reports: the higher-numbered port of a bonded pair faces the next port. -/
def State.nbrOf (s : State) (p h : Nat) : Nbr :=
  let n := (pubLink s (2 * s.lowPort p + h)).nbr
  if s.lowPort p = p ∨ n.chip = 0xFFFF then n else s.highNbr p n

/-- What a read of a register returns. Fields that software writes read as they stand; counters and status of the tread
domain as last published (13 R536). Reading changes nothing (00 R10). See 00 R11. -/
def State.readReg (s : State) : RegId → Word
  | .atrChip => s.cfg.chip.zeroExtend 32
  | .atrInstall => s.cfg.install
  | .atrHealth => word [(21, s.sec.fenced.toNat), (14, s.sec.absent.toNat), (7, s.sec.withdrawn.toNat), (0, s.sec.halls.toNat)]
  | .atrPart => word [(30, s.cfg.grade.code), (28, s.cfg.stepping.code), (16, s.cfg.suffix.toNat)]
  | .atrAlert => s.sec.alert.zeroExtend 32
  | .atrWdog => word [(16, s.sec.restarts.toNat), (0, s.sec.lastCause.toNat)]
  | .atrXing => word [(16, s.flt.lost.toNat), (2, bit s.flt.ovrTel), (1, bit s.flt.ovrCnt), (0, bit s.flt.ovrFlt)]
  | .atrResend => s.sec.stwResend
  | .foyLink => s.foyer.linkStat
  | .foyPoll => s.foyer.poll.zeroExtend 32
  | .foyDb hi => half s.foyer.dbBase hi
  | .qCfg n =>
    let q := s.queue n
    word [(31, bit q.en), (30, bit q.cqRo), (24, q.sqLog.toNat), (20, q.cqLog.toNat), (0, q.slice.toNat)]
  | .qChm n => (s.queue n).chm.zeroExtend 32
  | .qBase n cq hi => half (if cq then (s.queue n).cqb else (s.queue n).sqb) hi
  | .qStat n =>
    let q := s.queue n
    word [(31, bit q.err), (30, bit q.idle), (29, bit q.late), (0, q.sqHead.toNat)]
  | .winBase n w => word [(31, bit (SMap.get false (s.queue n).winEn w)), (0, (SMap.get 0 (s.queue n).winBase w).toNat)]
  | .winLen n w => (SMap.get 1 (s.queue n).winLen w).zeroExtend 32
  | .dmaCfg c => word [(3, bit (s.chan c).ro), (0, (s.chan c).retry.toNat)]
  | .dmaStat c =>
    let x := s.chan c
    word [(31, bit x.halt), (30, bit x.act.isSome), (29, bit x.shd.isSome),
      (20, match x.act with | some j => j.hdr.queue.val | none => 0), (0, x.status.toNat)]
  | .dmaSet c shd i => match (if shd then (s.chan c).shd else (s.chan c).act) with | some j => j.reg shd i | none => 0
  | .pwrStat => word [(29, s.pwr.state.toNat), (28, bit s.pwr.in54), (27, bit s.pwr.in12),
      (26, bit (s.halls.any (fun e => e.2.pwr.receiving))), (0, s.pwr.vin.toNat)]
  | .pwrCtl => word [(0, bit s.pwr.main)]
  | .pwrIn => s.pwr.iin ++ s.pwr.pin
  | .pwrWake hi => half s.pwr.wake hi
  | .pwrSleep hi => half s.pwr.sleep hi
  | .pwrTherm =>
    let x := s.pwr.thermPend.getD (s.pwr.throttle, s.pwr.hbmThr)
    word [(24, x.1.toNat), (16, x.2.toNat), (8, 0x6E)]
  | .pwrEvt => word [(28, s.pwr.evtCause.toNat), (20, s.pwr.evtCount.toNat), (0, s.pwr.evtSource.toNat)]
  | .pwrWakes => s.pwr.wakes
  | .pwrBoosts => s.pwr.boosts
  | .pwrHall ph =>
    let p := (s.hall ph).pwr
    p.vcode ++ p.temp ++ p.margin ++ p.iout
  | .timRef => word [(31, bit s.tim.refLost), (30, bit s.tim.lostSeen), (29, bit s.tim.locked), (0, s.tim.ofs.toNat)]
  | .timSnap => word [(16, s.tim.snapSeq.toNat)]
  | .timHold => s.tim.holdCount
  | .timHoldTreads hi => half s.tim.holdTreads hi
  | .lrecBase => word [(31, bit s.tim.lrecEn), (0, s.tim.lrecBase.toNat)]
  | .lrecSize => word [(22, s.tim.lrecLog.toNat), (0, s.tim.lrecN % 2 ^ 22)]
  | .tbSnap b hi => half (SMap.get 0 s.tim.snap b) hi
  | .tbRate b => SMap.get 0 s.tim.rate b
  | .tbStepLo b => SMap.get 0 s.tim.stepLo b
  | .tbStepHi b => SMap.get 0 s.tim.stepHi b
  | .pulseCtl n =>
    let p := s.pulse n
    word [(31, bit p.en), (30, bit p.mode), (28, p.base.toNat), (0, p.width.toNat)]
  | .pulseT n hi => half (s.pulse n).t hi
  | .pulsePer n hi => half (s.pulse n).per hi
  | .idleGap k => (SMap.get 0x4000#17 s.tim.idleGap k).zeroExtend 32
  | .idleW k => SMap.get 0x00FF0080#32 s.tim.idleW k
  | .slice k i => s.sliceReg k i
  | .secStat => s.secStat
  | .secVer => s.sec.fwVer
  | .secFloor => s.sec.flash.floor
  | .ten n hi => if hi then (s.queue n).tenHi else (s.queue n).tenLo
  | .fltCfg =>
    let x := s.flt.cfgPend.getD (s.flt.storm, s.flt.walkCe, s.flt.repLim)
    word [(24, x.1.toNat), (16, x.2.1.toNat), (12, x.2.2.toNat)]
  | .fltRingBase => s.flt.ringBase.zeroExtend 32
  | .fltRingCtl => word [(22, s.flt.ringLog.toNat), (0, s.flt.seq.toNat % 2 ^ 22)]
  | .fltSaveCtl => word [(30, s.flt.op.toNat), (27, s.flt.status.toNat), (0, s.flt.slice.toNat)]
  | .fltSaveOrd => s.flt.saveOrd
  | .fltSaveBase => s.flt.saveBase.zeroExtend 32
  | .fltResume hi => half s.flt.resumeOfs hi
  | .fltCnt i =>
    match i with
    | 0 => s.flt.commits
    | 1 => s.flt.aborts
    | 2 => s.flt.walkPass
    | 3 => s.flt.walkFail
    | 4 => s.flt.rejoinRef
    | _ => s.flt.records
  | .fltErr k => if (s.sl k).admitted then word [(16, (s.sl k).err.count.toNat), (0, (s.sl k).err.cls.toNat)] else 0
  | .fltEpoch k => if (s.sl k).admitted then (s.sl k).err.epoch else 0
  | .memStat c =>
    let m := pubMc s c
    word [(31, 1), (30, bit m.unusable), (29, bit m.selfref), (16, m.plist.length), (0, dieOfStack c)]
  | .memRef c => word [(24, (pubMc s c).band.toNat), (16, (BitVec.ofInt 8 (pubMc s c).topDebt).toNat), (0, (pubMc s c).forced.toNat)]
  | .memUrgent c => (pubMc s c).urgent
  | .memErr c hi => if hi then (pubMc s c).ue.zeroExtend 32 else (pubMc s c).ceLink ++ (pubMc s c).ceDie
  | .memScrub c =>
    let x := (s.mc c).scrubPend.getD ((s.mc c).scrubEn, (s.mc c).scrubInt)
    word [(31, bit x.1), (0, x.2.toNat)]
  | .memLag c => (pubMc s c).lagMax ++ (pubMc s c).lagCur
  | .cregBase c k => word [(31, bit (SMap.get {} (s.mc c).cregs k).en), (0, (SMap.get {} (s.mc c).cregs k).base.toNat)]
  | .cregLen c k => (SMap.get {} (s.mc c).cregs k).len.zeroExtend 32
  | .cregStat c k => word [(31, bit (SMap.get {} (pubMc s c).cregs k).sel), (30, bit (SMap.get {} (pubMc s c).cregs k).armed)]
  | .cregWcnt c k => (SMap.get {} (pubMc s c).cregs k).wcnt
  | .halStat ph => (pubHall s ph).statReg
  | .halGal ph => word [(16, galBits (fun g => (pubGal s (galIdx ph g)).cond.fencedBit)),
      (0, galBits (fun g => (pubGal s (galIdx ph g)).cond.suspectBit))]
  | .halVmap ph => (s.hall ph).reg.vmap
  | .halMode ph => (s.hall ph).reg.mode
  | .halPace ph => word [(31, bit (s.hall ph).reg.asA0), (29, s.cfg.stepping.code), (0, (pubHall s ph).reg.pid.toNat)]
  | .halScrub ph =>
    let x := (s.hall ph).reg.scrubPend.getD ((s.hall ph).reg.scrubEn, (s.hall ph).reg.scrubInt)
    word [(31, bit x.1), (0, x.2.toNat)]
  | .halCnt ph i => (pubHall s ph).counter i
  | .galErr gi => (pubGal s gi).ue ++ (pubGal s gi).ce
  | .galArith gi => (pubGal s gi).arith.zeroExtend 32
  | .arcGlobal => word [(16, s.bcnInt.toNat), (2, bit s.mesh2d), (0, s.linkmap.toNat)]
  | .redLines a hi => half (SMap.get {} s.pub.arcs a).redLines hi
  | .portCtl p =>
    let f := s.form p
    word [(24, s.role p 0), (16, if f = .bif then s.role p 1 else 0xFF), (3, bit (f = .bond)), (2, bit (f = .bif)),
      (1, bit ((s.port p).sparePend.getD (s.port p).spareEn)), (0, bit (s.port p).en)]
  | .nbrId p h =>
    let n := s.nbrOf p h
    word [(16, n.chip.toNat), (12, n.arcade.toNat), (8, n.index.toNat), (6, n.half.toNat), (0, n.version.toNat)]
  | .nbrStat p h =>
    let n := s.nbrOf p h
    word [(30, n.map.toNat), (27, n.state.toNat), (16, n.width.toNat), (0, (pubLink s (2 * s.lowPort p + h)).delay)]
  | .linkCfg p h =>
    let r := (s.link (2 * p + h)).reg
    word [(16, r.rtoExtra.toNat), (8, r.laneThr.toNat), (1, bit r.autowidth)]
  | .linkStat p h =>
    let x := pubLink s (2 * s.lowPort p + h)
    word [(31, bit x.reg.mode), (30, bit x.reg.leader), (29, bit x.reg.fresh), (28, bit x.pauseAt.isSome),
      (16, x.sq.rbuf.length), (12, (pubPort s p).sub.getD 15), (0, (pubPort s p).laneFail.toNat)]
  | .linkCnt l i => (pubLink s l).cnt.reg i
  | .spare p => (pubPort s p).spares.zeroExtend 32
  | .laneSym p i => BitVec.ofNat 32 (min (SMap.get 0 (pubPort s p).laneSym i) 0xFFFFFFFF)
  | .ctxA c =>
    let x := s.ctx c
    word [(31, bit x.en), (30, bit x.half), (16, x.slice.toNat), (0, x.wheel.toNat)]
  | .ctxB c =>
    let x := s.ctx c
    word [(24, x.cmask.toNat), (16, x.bayHi.toNat), (0, x.bayLo.toNat)]
  | .ctxLag c => (pubCtx s c).lagMax ++ (pubCtx s c).lagCur
  | .ctxMiss c => (pubCtx s c).miss
  | .ctxFilter c => (pubCtx s c).filter

/-- A read at a BAR0 offset of set-up space; a hole reads 0 (R571). -/
def State.readSetup (s : State) (off : Nat) : Word :=
  match s.regAt off with
  | none => 0
  | some r => s.readReg r

end Sys2Proof.Machine
end

