-- ==== Sys2Proof/Machine/RegWrite.lean ====
section
/-! DEFINITION. Writes of set-up space (15 R570 to R584): what each register takes, its condition (Table 15.10), and the
commands that write. A field written with a value that its table reserves keeps its value (00 R12).
-/
namespace Sys2Proof.Machine

/-- The low or high half of a 64-bit value replaced. -/
def setHalf (v : Word64) (hi : Bool) (x : Word) : Word64 := if hi then x ++ v.extractLsb' 0 32 else v.extractLsb' 32 32 ++ x

/-- A field that keeps its value where the new one is reserved. -/
def keepIf {α : Type} (bad : Bool) (old new : α) : α := if bad then old else new

/-- Taken under its condition, else refused. -/
def whenOk (ok : Bool) (s : State) : Option State := if ok then some s else none

/-! ### Conditions (Table 15.10) -/

/-- FOY_Q_CFG.en is 0 and FOY_Q_STAT.idle is 1 (11 R448). -/
def State.queueFree (s : State) (n : Nat) : Bool := !(s.queue n).en && (s.queue n).idle

/-- Every queue is so. -/
def State.queuesFree (s : State) : Bool := (List.range 16).all s.queueFree

/-- A flight of the slice is resident. -/
def State.hasFlights (s : State) (k : Nat) : Bool := s.resident.any (fun e => e.2.slice.toNat = k)

/-- The hall is idle, asleep or withdrawn (03 R129, 04 R179). -/
def State.hallQuiet (s : State) (ph : Nat) : Bool :=
  let st := (s.hall ph).st
  st = .idle || st = .asleep || st = .withdrawn

/-- A resident flight has a share on the virtual hall that the hall carries (10 R417). -/
def State.hallShared (s : State) (ph : Nat) : Bool :=
  match (s.hall ph).mapped with
  | none => false
  | some k => s.resident.any (fun e => e.2.slice.toNat = k && e.2.shares.any (fun x => x.vh.toNat = (s.hall ph).vh))

/-- Two enabled contexts of one port leave each other's share alone: on one link the wheel positions are disjoint, on one pool
the bays and the class C bays (08 R352). -/
def Ctx.disjoint (x y : Ctx) : Bool :=
  (x.half != y.half || x.wheel &&& y.wheel = 0) && (x.bayHi.toNat < y.bayLo.toNat || y.bayHi.toNat < x.bayLo.toNat)
    && x.cmask &&& y.cmask = 0

/-- Context `c` may take the value `x` (08 R367): its slice is admitted, with no flight resident, and no share overlaps. -/
def State.ctxOk (s : State) (c : Nat) (x : Ctx) : Bool :=
  let k := x.slice.toNat
  (s.sl k).admitted && !s.hasFlights k && (!(s.ctx c).en || !s.hasFlights (s.ctx c).slice.toNat)
    && (!x.en || (List.range 64).all (fun n =>
      let d := c / 64 * 64 + n
      d = c || !(s.ctx d).en || x.disjoint (s.ctx d)))

/-! ### Registers with an effect of their own -/

/-- A context written. One that is enabled announces its share, and takes the far end's (08 R353). Log 70 (DEDUCED). -/
def State.wrCtx (s : State) (c : Nat) (x : Ctx) : Option State :=
  if !s.ctxOk c x then none
  else
    let s1 := s.updCtx c (fun _ => x)
    if !x.en then some s1
    else
      let sb := BitVec.ofNat 8 (x.bayHi.toNat - x.bayLo.toNat + 1)
      let cb := BitVec.ofNat 8 ((List.range 8).filter (fun i => x.cmask.getLsbD i)).length
      some ((s1.sendUnsch (s1.ctxLink c) 3 2 0xFF s.cfg.chip 0 (shareBytes x.slice sb cb)).takeShare c)

/-- ARC_CTX_A and ARC_CTX_B of context `c` (08 Tables 08.15, 08.16). -/
def State.wrCtxA (s : State) (c : Nat) (v : Word) : Option State :=
  let x := s.ctx c
  let k := v.extractLsb' 16 8
  s.wrCtx c { x with en := v.getLsbD 31, half := v.getLsbD 30, slice := keepIf (k = 255) x.slice k, wheel := v.extractLsb' 0 16 }

def State.wrCtxB (s : State) (c : Nat) (v : Word) : Option State :=
  let x := s.ctx c
  let hi := keepIf (96 ≤ (v.extractLsb' 16 7).toNat) x.bayHi (v.extractLsb' 16 7)
  let lo := v.extractLsb' 0 7
  s.wrCtx c { x with cmask := v.extractLsb' 24 8, bayHi := hi, bayLo := keepIf (hi.toNat < lo.toNat) x.bayLo lo }

/-- A link held down (07 R288). -/
def State.holdDown (s : State) (l : Nat) : State :=
  if (s.link l).phase = .down then s else (s.takeDown l .down).updLink l (fun x => { x with nbr := {} })

/-- ARC_GLOBAL (07 R284): a change of linkmap or mesh2d takes every port down and trains it under its new role. Log 73 (DEDUCED). -/
def State.wrArcGlobal (s : State) (v : Word) : Option State :=
  let m := v.extractLsb' 0 2
  let lm := keepIf (m = 3 || (m = 0 && s.cfg.grade = .m)) s.linkmap m
  let mesh := v.getLsbD 2
  let s1 := { s with bcnInt := keepIf (v.extractLsb' 16 8 = 0) s.bcnInt (v.extractLsb' 16 8) }
  if lm = s.linkmap && mesh = s.mesh2d then some s1
  else if !s.admitted.isEmpty then none
  else
    let s2 := s1.each (List.range 60) (fun s l => s.holdDown l)
    let s3 := { s2 with linkmap := lm, mesh2d := mesh }
    some (if s3.mainOn then s3.trainAll else s3)

/-- ARC_PORT_CTL (07 R288, R321): both halves and the other port of a bonded pair go down and come up with their link. -/
def State.wrPortCtl (s : State) (p : Nat) (v : Word) : Option State :=
  let x := s.port p
  let en := v.getLsbD 0
  let ls := (List.range 2).filter (fun h => s.hasLink p h) |>.map (fun h => 2 * s.lowPort p + h)
  if ls.any s.linkInUse then none
  else
    let s1 := s.updPort p (fun x => { x with en, sparePend := some (v.getLsbD 1) })
    if en = x.en then some s1
    else if !en then some (s1.each ls (fun s l => s.holdDown l))
    else some (s1.each ls (fun s l => if s.mainOn && s.mayTrain (l / 2) (l % 2) then s.startFull l else s))

/-- TIM_PULSE_CTL (14 R562, R569; 15 R576): arming takes the pending time from TIM_PULSE_T. A period that is reserved keeps en. -/
def State.wrPulseCtl (s : State) (n : Nat) (v : Word) : Option State :=
  let p := s.pulse n
  let w := v.extractLsb' 0 16
  let q := { p with mode := v.getLsbD 30, base := v.extractLsb' 28 2, width := keepIf (w = 0) p.width w }
  if q ≠ p && p.en then none
  else if v.getLsbD 31 && !p.en then
    some (s.setPulse n (if q.mode && q.badPer then q else { q with en := true, next := q.t }))
  else some (s.setPulse n { q with en := v.getLsbD 31 })

/-- SEC_TEN_LO and SEC_TEN_HI (14 R557, R569): enabling counts 10^9 counts of TB3 to the first record. -/
def State.wrTen (s : State) (n : Nat) (hi : Bool) (v : Word) : Option State :=
  whenOk (s.queueFree n) (s.updQueue n (fun q =>
    if hi then { q with tenHi := v }
    else
      let on := v.getLsbD 0 && !q.tenLo.getLsbD 0
      { q with tenLo := v &&& 0xFFFFFFC1, tenAt := if on then s.clk.tb3.toNat + 1000000000 else q.tenAt }))

/-- FLT_SAVE_CTL (12 R501 to R507). -/
def State.wrSaveCtl (s : State) (v : Word) : Option State :=
  if !s.saveCtlOpen then none
  else
    let k := v.extractLsb' 0 8
    some (match (v.extractLsb' 30 2).toNat with
      | 0 => { s with flt := { s.flt with op := 0, slice := k } }
      | 1 => s.askSave k
      | 2 => s.askResume k
      | _ => s.askRestore k)

/-- HAL_PACE.as_a0 (10 R417); read-only on A0. -/
def State.wrPace (s : State) (ph : Nat) (v : Word) : Option State :=
  if s.cfg.stepping = .a0 then some s
  else whenOk (s.hallQuiet ph && !s.hallShared ph) (s.updHall ph (fun h => { h with reg := { h.reg with asA0 := v.getLsbD 31 } }))

/-- MEM_CREG_BASE and MEM_CREG_LEN (06 R278, Tables 06.8, 06.9). -/
def State.wrCreg (s : State) (c k : Nat) (isLen : Bool) (v : Word) : Option State :=
  let r := SMap.get {} (s.mc c).cregs k
  let n := v.extractLsb' 0 16
  whenOk (!r.en || !s.mcUsed c) (s.updCreg c k (fun r =>
    if isLen then { r with len := keepIf (n = 0 || 20480 < n.toNat) r.len n }
    else { r with en := v.getLsbD 31, base := v.extractLsb' 0 27 }))

/-- TIM_IDLE_GAP and TIM_IDLE_W (10 R427, Table 10.7). Log 74 (DEDUCED). -/
def State.wrIdle (s : State) (k : Nat) (isW : Bool) (v : Word) : Option State :=
  let g := v.extractLsb' 0 17
  let old := SMap.get 0x00FF0080#32 s.tim.idleW k
  let w := keepIf ((v.extractLsb' 16 11).toNat < 63) (old.extractLsb' 16 11) (v.extractLsb' 16 11)
  let d := keepIf (w.toNat + 1 < (v.extractLsb' 0 12).toNat) (old.extractLsb' 0 12) (v.extractLsb' 0 12)
  whenOk (!(s.sl k).admitted || !s.hasFlights k)
    (if isW then { s with tim := { s.tim with idleW := SMap.set 0x00FF0080#32 s.tim.idleW k (0#5 ++ w ++ 0#4 ++ d) } }
    else if g.toNat < 256 || 65536 < g.toNat then s
    else { s with tim := { s.tim with idleGap := SMap.set 0x4000#17 s.tim.idleGap k g } })

/-- PWR_THERM (13 R540): in effect at the next landing. -/
def State.wrTherm (s : State) (v : Word) : State :=
  let old := s.pwr.thermPend.getD (s.pwr.throttle, s.pwr.hbmThr)
  let t := v.extractLsb' 24 8
  let h := v.extractLsb' 16 8
  let new := (keepIf (t.toNat < 70 || 105 < t.toNat) old.1 t, keepIf (h.toNat < 85 || 105 < h.toNat) old.2 h)
  { s with pwr := { s.pwr with thermPend := some new } }

/-- FLT_CFG (12 R507): in effect at the next landing. -/
def State.wrFltCfg (s : State) (v : Word) : State :=
  let old := s.flt.cfgPend.getD (s.flt.storm, s.flt.walkCe, s.flt.repLim)
  let st := v.extractLsb' 24 8
  let r := v.extractLsb' 12 4
  { s with flt := { s.flt with cfgPend := some (keepIf (st = 0) old.1 st, v.extractLsb' 16 8, keepIf (r = 0) old.2.2 r) } }

/-- MEM_SCRUB and HAL_SCRUB (06 Tables 06.12, 06.13): in effect at the next landing. -/
def MemCtl.wrScrub (m : MemCtl) (v : Word) : MemCtl :=
  let i := v.extractLsb' 0 16
  { m with scrubPend := some (v.getLsbD 31, keepIf (i.toNat < 16) (m.scrubPend.getD (m.scrubEn, m.scrubInt)).2 i) }

def HallReg.wrScrub (r : HallReg) (v : Word) : HallReg :=
  let i := v.extractLsb' 0 12
  { r with scrubPend := some (v.getLsbD 31, keepIf (i.toNat < 64) (r.scrubPend.getD (r.scrubEn, r.scrubInt)).2 i) }

/-- Another place or size of the fault ring: it holds no record yet. Log 100 (DEDUCED). -/
def State.setFltRing (s : State) (base : BitVec 27) (log : BitVec 5) : State :=
  if base = s.flt.ringBase ∧ log = s.flt.ringLog then s
  else { s with flt := { s.flt with ringBase := base, ringLog := log, ringN := 0 } }

/-! ### Every register -/

/-- A write of a register under its own rules; none where it is refused. A register that software cannot write keeps its value. See 00 R9. -/
def State.writeReg (s : State) (r : RegId) (v : Word) : Option State :=
  match r with
  | .atrAlert => some { s with sec := { s.sec with alert := s.sec.alert &&& ~~~(v.extractLsb' 0 6) } }
  | .atrXing => some { s with flt := { s.flt with
      ovrTel := s.flt.ovrTel && !v.getLsbD 2, ovrCnt := s.flt.ovrCnt && !v.getLsbD 1, ovrFlt := s.flt.ovrFlt && !v.getLsbD 0 } }
  | .foyPoll =>
    let i := v.extractLsb' 0 12
    some { s with foyer := { s.foyer with poll := keepIf (i = 0 || 4000 < i.toNat) s.foyer.poll i } }
  | .foyDb hi =>
    whenOk s.queuesFree { s with foyer := { s.foyer with dbBase := setHalf s.foyer.dbBase hi (if hi then v else v &&& 0xFFFFFF80) } }
  | .qCfg n => s.wrQueueCfg n v
  | .qChm n => whenOk (s.queueFree n) (s.updQueue n (fun q => { q with chm := v.extractLsb' 0 16 }))
  | .qBase n cq hi =>
    let x := if hi then v else v &&& 0xFFFFF000
    whenOk (s.queueFree n) (s.updQueue n (fun q =>
      if cq then { q with cqb := setHalf q.cqb hi x } else { q with sqb := setHalf q.sqb hi x }))
  | .qStat n => some (if v.getLsbD 29 then s.updQueue n (fun q => { q with late := false }) else s)
  | .winBase n w => whenOk (s.queueFree n) (s.updQueue n (fun q => { q with
      winEn := SMap.set false q.winEn w (v.getLsbD 31), winBase := SMap.set 0 q.winBase w (v.extractLsb' 0 27) }))
  | .winLen n w =>
    let l := v.extractLsb' 0 20
    whenOk (s.queueFree n) (s.updQueue n (fun q => { q with winLen := SMap.upd 1 q.winLen w (fun x => keepIf (l = 0) x l) }))
  | .dmaCfg c => some (s.updChan c (fun x => { x with retry := v.extractLsb' 0 3, ro := v.getLsbD 3 }))
  | .dmaStat c => some (if v.getLsbD 31 then s.resumeChan c else s)
  | .pwrCtl => s.wrPwrCtl v
  | .pwrWake hi => some (s.each (askedHalls hi v) State.askWake)
  | .pwrSleep hi => some (s.each (askedHalls hi v) State.askSleep)
  | .pwrTherm => some (s.wrTherm v)
  | .timRef => some (if v.getLsbD 30 then { s with tim := { s.tim with lostSeen := false } } else s)
  | .timSnap => some (if v.getLsbD 0 then s.capture else s)
  | .lrecBase => whenOk s.admitted.isEmpty
      (s.setRing { s.tim with lrecEn := v.getLsbD 31, lrecBase := v.extractLsb' 0 27 })
  | .lrecSize =>
    let l := v.extractLsb' 22 5
    whenOk s.admitted.isEmpty (s.setRing { s.tim with lrecLog := keepIf (l.toNat < 4 || 20 < l.toNat) s.tim.lrecLog l })
  | .tbRate b => some (s.setRate b v)
  | .tbStepLo b => some { s with tim := { s.tim with stepLo := SMap.set 0 s.tim.stepLo b v } }
  | .tbStepHi b => some (s.applyStep b v)
  | .pulseCtl n => s.wrPulseCtl n v
  | .pulseT n hi =>
    let p := s.pulse n
    whenOk (!p.en) (s.setPulse n { p with t := setHalf p.t hi v })
  | .pulsePer n hi =>
    let p := s.pulse n
    whenOk (!p.en) (s.setPulse n { p with per := setHalf p.per hi v })
  | .idleGap k => s.wrIdle k false v
  | .idleW k => s.wrIdle k true v
  | .ten n hi => s.wrTen n hi v
  | .fltCfg => some (s.wrFltCfg v)
  | .fltRingBase => whenOk s.admitted.isEmpty (s.setFltRing (v.extractLsb' 0 27) s.flt.ringLog)
  | .fltRingCtl =>
    let l := v.extractLsb' 22 5
    whenOk s.admitted.isEmpty (s.setFltRing s.flt.ringBase (keepIf (l.toNat < 6 || 20 < l.toNat) s.flt.ringLog l))
  | .fltSaveCtl => s.wrSaveCtl v
  | .fltSaveOrd => whenOk s.saveCtlOpen { s with flt := { s.flt with saveOrd := v } }
  | .fltSaveBase => whenOk s.saveCtlOpen { s with flt := { s.flt with saveBase := v.extractLsb' 0 27 } }
  | .fltResume hi => whenOk s.saveCtlOpen { s with flt := { s.flt with resumeOfs := setHalf s.flt.resumeOfs hi v } }
  | .memScrub c => some (s.updMc c (fun m => m.wrScrub v))
  | .cregBase c k => s.wrCreg c k false v
  | .cregLen c k => s.wrCreg c k true v
  | .halVmap ph => whenOk (s.hallQuiet ph) (s.updHall ph (fun h => { h with reg := { h.reg with vmap := v &&& 0x80FF003F } }))
  | .halMode ph => whenOk (s.hallQuiet ph) (s.updHall ph (fun h => { h with reg := { h.reg with mode := v &&& 1 } }))
  | .halPace ph => s.wrPace ph v
  | .halScrub ph => some (s.updHall ph (fun h => { h with reg := h.reg.wrScrub v }))
  | .galArith gi => whenOk (s.hallQuiet (gi / 16)) (s.updGal gi (fun g => { g with arith := g.arith &&& ~~~(v.extractLsb' 0 8) }))
  | .arcGlobal => s.wrArcGlobal v
  | .portCtl p => s.wrPortCtl p v
  | .linkCfg p h => s.wrLinkCfg (2 * p + h) v
  | .ctxA c => s.wrCtxA c v
  | .ctxB c => s.wrCtxB c v
  | .atrChip | .atrInstall | .atrHealth | .atrPart | .atrWdog | .atrResend | .foyLink | .dmaSet _ _ _ | .pwrStat | .pwrIn
  | .pwrEvt | .pwrWakes | .pwrBoosts | .pwrHall _ | .timHold | .timHoldTreads _ | .tbSnap _ _ | .slice _ _ | .secStat | .secVer
  | .secFloor | .fltCnt _ | .fltErr _ | .fltEpoch _ | .memStat _ | .memRef _ | .memUrgent _ | .memErr _ _ | .memLag _
  | .cregStat _ _ | .cregWcnt _ _ | .halStat _ | .halGal _ | .halCnt _ _ | .galErr _ | .redLines _ _ | .nbrId _ _
  | .nbrStat _ _ | .linkStat _ _ | .linkCnt _ _ | .spare _ | .laneSym _ _ | .ctxLag _ | .ctxMiss _ | .ctxFilter _ => some s

/-! ### BAR0 writes (11 R439) -/

/-- A write of the MSI-X table, one entry of 16 bytes for each vector; one that is unmasked while pending is sent (11 R440). -/
def State.wrMsix (s : State) (o : Nat) (v : Word) : State :=
  let n := o / 16
  let sh := 32 * (o % 16 / 4)
  let old := SMap.get msixReset s.foyer.msix n
  let new := (old &&& ~~~(0xFFFFFFFF#128 <<< sh)) ||| (v.zeroExtend 128 <<< sh)
  let s1 := { s with foyer := { s.foyer with msix := SMap.set msixReset s.foyer.msix n new } }
  if !new.getLsbD 96 && s.foyer.pba.getLsbD n then
    ({ s1 with foyer := { s1.foyer with pba := s1.foyer.pba &&& ~~~(BitVec.ofNat 16 (2 ^ n)) } }).vector n
  else s1

/-- A 4-byte write at a BAR0 offset: set-up space, the MSI-X table, or ignored (Table 11.3, 15 R571). Log 72 (DEDUCED). -/
def State.bar0Write (s : State) (off v : Word) : State :=
  let o := off.toNat
  if o % 4 ≠ 0 then s
  else if 0x3F00000 ≤ o ∧ o < 0x3F00100 then s.wrMsix (o - 0x3F00000) v
  else
    match s.regAt o with
    | none => s
    | some r => s.barWrite off v (s.writeReg r v)

/-- What a 4-byte read at a BAR0 offset returns (11 Table 11.3): set-up space, the MSI-X table, the pending bits, or 0. -/
def State.bar0Read (s : State) (o : Nat) : Word :=
  if o % 4 ≠ 0 then 0
  else if 0x3F00000 ≤ o ∧ o < 0x3F00100 then
    (SMap.get msixReset s.foyer.msix ((o - 0x3F00000) / 16)).extractLsb' (32 * (o % 16 / 4)) 32
  else if o = 0x3F80000 then s.foyer.pba.zeroExtend 32
  else s.readSetup o

/-- Device ID, revision ID and class code of configuration space (11 Table 11.2); the vendor and subsystem IDs are not in the spec. -/
def State.pciIdentity (s : State) : BitVec 16 × Byte × BitVec 24 :=
  (match s.cfg.grade with | .m => 0x0A14 | .b => 0x0A12 | .n => 0x0A10,
   match s.cfg.stepping with | .a0 => 0x00 | .b0 => 0x10, 0x120000)

/-- SET_UP_REGISTER_WRITE (11 R439, 15 R573). See 15 R574. -/
def execSetUpRegisterWrite (off value : Word) (s : State) : Out := .next (s.bar0Write off value)

/-- A BAR0 write at an offset that the command's own unit gives. -/
def State.writeAt (s : State) (o : Nat) (v : Word) : Out := .next (s.bar0Write (BitVec.ofNat 32 o) v)

/-- HAL_VMAP_WRITE (03 R129). -/
def execHalVmapWrite (ph : Fin 64) (value : Word) (s : State) : Out := s.writeAt (0x200008 + 0x1000 * ph.val) value

/-- HAL_MODE_WRITE (04 R179). -/
def execHalModeWrite (ph : Fin 64) (value : Word) (s : State) : Out := s.writeAt (0x20000C + 0x1000 * ph.val) value

/-- HAL_PACE_WRITE (10 R417). -/
def execHalPaceWrite (ph : Fin 64) (value : Word) (s : State) : Out := s.writeAt (0x200010 + 0x1000 * ph.val) value

/-- MEM_CREG_WRITE (06 R278). -/
def execMemCregWrite (stack : Fin 14) (k : Fin 8) (isLen : Bool) (value : Word) (s : State) : Out :=
  s.writeAt (0x100100 + 0x10000 * stack.val + 0x10 * k.val + if isLen then 4 else 0) value

/-- ARC_GLOBAL_WRITE (07 R284). -/
def execArcGlobalWrite (value : Word) (s : State) : Out := s.writeAt 0x300000 value

/-- ARC_PORT_CTL_WRITE (07 R321). -/
def execArcPortCtlWrite (p : Fin 30) (value : Word) (s : State) : Out := s.writeAt (0x400000 + 0x10000 * p.val) value

/-- ARC_CTX_WRITE (08 R367). -/
def execArcCtxWrite (p : Fin 30) (n : Fin 64) (isB : Bool) (value : Word) (s : State) : Out :=
  s.writeAt (0x401000 + 0x10000 * p.val + 0x20 * n.val + if isB then 4 else 0) value

/-- TIM_IDLE_WRITE (10 R427). -/
def execTimIdleWrite (slice : BitVec 8) (isW : Bool) (value : Word) (s : State) : Out :=
  s.writeAt (0x41000 + 0x20 * slice.toNat + if isW then 4 else 0) value

/-! ### REG_WRITE descriptors (11 R466) -/

/-- A write by descriptor, and its completion: refused, or naming a hole, it carries the record of the refused write (15 R571). -/
def State.descWrite (s : State) (h : DescHdr) (off v ord : Word) : State :=
  match (s.regAt off.toNat).bind (fun r => s.writeReg r v) with
  | some t => t.finish h 0x22 0 0 ord
  | none => s.finishRec h 0x22 0x0001 0 { cause := 0x0117, detail := v ++ off } ord

/-- REG_WRITE_DESCRIPTOR: at once with slice 0xFF, else at the report tread of the ordinal. -/
def execRegWriteDescriptor (hdr : DescHdr) (off value ord : Word) (slice : BitVec 8) (s : State) : Out :=
  withSteward hdr 0x22 (fun s =>
    let k := slice.toNat
    if hdr.queue.val ≠ 0 || off.toNat % 4 ≠ 0 || (slice ≠ 0xFF && !(s.sl k).admitted) then s.refuse hdr 0x22
    else if slice = 0xFF then s.descWrite hdr off value 0
    else if s.ordFinal k ord then s.finishStale hdr 0x22 ord
    else s.updSl k (fun x => { x with writes := x.writes ++ [{ ord, off, value, hdr }] })) s

/-- REG_WRITE_AT_ORDINAL: the first waiting write of the slice whose report tread has come. Log 25 (DEDUCED). -/
def execRegWriteAtOrdinal (slice : BitVec 8) (s : State) : Out :=
  let k := slice.toNat
  match (s.sl k).writes.find? (fun e => (s.atReport k e.ord).isSome) with
  | none => .next s
  | some e =>
    match s.atReport k e.ord with
    | none => .next s
    | some s1 =>
      .next ((s1.updSl k (fun x => { x with writes := x.writes.erase e })).descWrite e.hdr e.off e.value e.ord)

end Sys2Proof.Machine
end

