-- ==== Sys2Proof/Machine/Smbus.lean ====
section
/-! DEFINITION. The SMBus commands, presence, and the JTAG port (14 R548 to R552, R564 to R567).
-/
namespace Sys2Proof.Machine

/-! ### Commands and results (R565) -/

/-- The result that the part holds until the next command arrives. Log 75 (DEDUCED). -/
def State.reply (s : State) (st : Byte) (data : List Byte) : State := { s with pins := { s.pins with smbStatus := st, smbData := data } }

/-- SMB_ALERT_N is asserted, low, while any bit of ATR_ALERT is 1 (R566). -/
def State.smbAlertLow (s : State) : Bool := s.sec.alert ≠ 0

/-- A command: nobody answers while the boot ROM has not come so far; in ROM recovery only the recovery commands act (R547). -/
def smb (code : Byte) (rom : Bool) (f : State → State) (s : State) : Out :=
  if s.sec.boot = 0 then .next s
  else
    let s1 := { s with pins := { s.pins with smbCode := code, smbNone := false, smbData := [] } }
    .next (if s1.sec.boot = 1 && !rom then s1.reply 0x02 [] else f s1)

/-- GET_ID (R565). -/
def execGetId (s : State) : Out :=
  smb 0x01 true (fun s => s.reply 0 (bvBytes 2 s.cfg.chip ++ bvBytes 4 s.cfg.install
    ++ leBytes 1 s.cfg.grade.code ++ leBytes 1 s.cfg.stepping.code ++ bvBytes 4 s.sec.fwVer ++ bvBytes 4 s.secStat)) s

/-- GET_STATUS (R565). -/
def execGetStatus (s : State) : Out :=
  smb 0x02 true (fun s => s.reply 0
    (([RegId.pwrStat, .atrHealth, .atrAlert, .secStat]).flatMap (fun r => bvBytes 4 (s.readReg r)))) s

/-- REG_READ (15 R570, R571). -/
def execRegRead (off : Word) (s : State) : Out := smb 0x03 false (fun s => s.reply 0 (bvBytes 4 (s.readSetup off.toNat))) s

/-- A set-up write by SMBus: a hole is a bad argument, a refused write refused with its record (15 R571, R584). -/
def State.smbWrite (s : State) (off v : Word) : State :=
  match s.regAt off.toNat with
  | none => s.reply 0x05 []
  | some r =>
    match s.writeReg r v with
    | some t => t.reply 0 []
    | none => (s.refuseWrite off v).reply 0x02 []

/-- SMBUS_REG_WRITE (15 R570). -/
def execSmbusRegWrite (off value : Word) (s : State) : Out := smb 0x04 false (fun s => s.smbWrite off value) s

/-- FAULT_READ (R565; 12 R486): refused for a record that has been overwritten, or has not been written. -/
def execFaultRead (seq : Word) (s : State) : Out :=
  smb 0x05 false (fun s =>
    let back := (s.flt.seq - seq).toNat
    if back = 0 || 2 ^ s.flt.ringLog.toNat < back || s.flt.ringN < back then s.reply 0x02 []
    else
      match s.flt.waiting.find? (fun e => e.1 = seq.toNat) with
      | some e => s.reply 0 (bvBytes 64 e.2)
      | none => s.reply 0 (s.readBytes (s.ringAddr seq.toNat) 64)) s

/-- MAIN (R565): a write of PWR_CTL.main. -/
def execMain (value : Byte) (s : State) : Out :=
  smb 0x07 false (fun s => if 1 < value.toNat then s.reply 0x05 [] else s.smbWrite 0x30004 (value.zeroExtend 32)) s

/-- CLEAR_ALERT (R565): a write of ATR_ALERT. -/
def execClearAlert (mask : Byte) (s : State) : Out := smb 0x0C true (fun s => s.smbWrite 0x10 (mask.zeroExtend 32)) s

/-! ### Reset by command (R565) -/

/-- The reset of a RESET command. -/
def State.doReset (s : State) (part : Bool) : State :=
  let s1 := { s with pins := { s.pins with resetPend := none } }
  if part then s1.selfReset else s1.computeReset

/-- RESET (R565): made after the result is read or after 10 ms. In ROM recovery only a part reset. -/
def execReset (kind : Byte) (s : State) : Out :=
  smb 0x06 true (fun s =>
    if 1 < kind.toNat then s.reply 0x05 []
    else if s.sec.boot = 1 && kind = 0 then s.reply 0x02 []
    else
      let s1 := { s with pins := { s.pins with resetPend := some (kind = 1), resetAt := s.clk.tb3.toNat + 10000000 } }
      s1.reply 0 []) s

/-- RESULT (R565): the status byte and the data; busy where no command has given a result. -/
def execResult (s : State) : Out :=
  if s.sec.boot = 0 then .next s
  else
    let r := if s.pins.smbNone then [0x01] else s.pins.smbStatus :: s.pins.smbData
    let t := match s.pins.resetPend with | some part => s.doReset part | none => s
    .next { t with pins := { t.pins with reply := r } }

/-- RESET_RESULT_TIMEOUT (R565). -/
def execResetResultTimeout (s : State) : Out :=
  match s.pins.resetPend with
  | none => .next s
  | some part => .next ((s.waitTb3 s.pins.resetAt).doReset part)

/-! ### Attestation (R549, R550) -/

/-- Bytes 0 to 219 of the report (Table 14.6). -/
def State.reportHead (s : State) (nonce : BitVec 256) : List Byte :=
  let f := s.sec.flash
  let dig := fun (what tag n : Nat) => (List.range n).map (fun i => Config.digest what tag i)
  leBytes 2 1 ++ leBytes 2 (bit f.sealBroken + 2 * bit f.idReset + 4 * bit f.lowered) ++ bvBytes 2 s.cfg.chip
    ++ leBytes 1 s.cfg.grade.code ++ leBytes 1 s.cfg.stepping.code ++ bvBytes 4 s.cfg.install ++ bvBytes 4 s.sec.fwVer
    ++ bvBytes 4 f.floor ++ leBytes 2 s.sec.halls.toNat ++ leBytes 2 s.sec.fenced.toNat ++ bvBytes 8 s.clk.tread
    ++ bvBytes 32 nonce ++ dig 0 0 32 ++ (if s.sec.instOk then dig 1 s.sec.bootTag 32 else zeros 32) ++ dig 2 s.sec.bootTag 32
    ++ dig 3 f.salt.toNat 57 ++ zeros 3

/-- ATTEST (R550): refused once the identity key has been erased (Table 14.7). Log 76 (DEDUCED). -/
def execAttest (nonce : BitVec 256) (s : State) : Out :=
  smb 0x08 false (fun s =>
    if s.sec.keyErased then s.reply 0x02 []
    else
      let h := s.reportHead nonce
      let r := h ++ (List.range 114).map (fun i => Config.signature s.sec.flash.salt.toNat h i)
      ({ s with pins := { s.pins with report := r } }).reply 0 []) s

/-- ATTEST_READ (R565): up to 240 bytes of the last report. -/
def execAttestRead (off : BitVec 16) (s : State) : Out :=
  smb 0x09 false (fun s =>
    if s.pins.report.isEmpty then s.reply 0x02 []
    else if s.pins.report.length ≤ off.toNat then s.reply 0x05 []
    else s.reply 0 ((s.pins.report.drop off.toNat).take 240)) s

/-! ### Firmware (R548) -/

/-- Base and size of an FW_WRITE target in the flash (Tables 14.1, 14.10). -/
def fwTarget (t : Byte) : Option (Nat × Nat) :=
  if t = 0 then some (0x400000, 0x1000000) else if t = 1 then some (0x1400000, 0x1000000)
  else if t = 2 then some (0x100000, 0x100000) else none

/-- FW_WRITE (R548, R565): the active slot is refused. -/
def execFwWrite (target : Byte) (off : Word) (bytes : List Byte) (s : State) : Out :=
  smb 0x0A true (fun s =>
    match fwTarget target with
    | none => s.reply 0x05 []
    | some (base, size) =>
      if 240 < bytes.length || size < off.toNat + bytes.length then s.reply 0x05 []
      else if target = (if s.sec.flash.active then 1 else 0) then s.reply 0x02 []
      else
        let put := fun (m : SMap Byte) (x : Byte × Nat) => SMap.place (SMap.erase m (base + off.toNat + x.2)) (base + off.toNat + x.2) x.1
        let f := { s.sec.flash with bytes := bytes.zipIdx.foldl put s.sec.flash.bytes }
        ({ s with sec := { s.sec with flash := f } }).reply 0 []) s

/-- The sealed record written again with a new active slot and floor (R544). -/
def State.activate (s : State) (slot : Bool) (ver : Word) : State :=
  let f := s.sec.flash
  { s with sec := { s.sec with flash := { f with active := slot, floor := ver, counter := f.counter + 1 } } }

/-- FW_ACTIVATE (R548); `valid` and `version` are what the verification of the slot finds. -/
def execFwActivate (slot : Byte) (valid : Bool) (version : Word) (s : State) : Out :=
  smb 0x0B true (fun s =>
    if 1 < slot.toNat then s.reply 0x05 []
    else if !valid then s.reply 0x06 []
    else if version.toNat < s.sec.flash.floor.toNat then s.reply 0x02 []
    else (s.activate (slot = 1) version).reply 0 []) s

/-! ### Presence (R551, R552, Table 14.7) -/

/-- A presence command accepted: one at a time. -/
def presence (code : Byte) (n : BitVec 4) (f : State → Byte) (arg : Nat) (ver : Word) (s : State) : Out :=
  smb code false (fun s =>
    if s.sec.presence ≠ 0 then s.reply 0x01 []
    else if f s ≠ 0 then s.reply (f s) []
    else ({ s with sec := { s.sec with presence := n, presArg := arg, presVer := ver, presAt := s.clk.tb3.toNat } }).reply 0x03 []) s

/-- What speaks against a downgrade to a slot. -/
def State.downgradeBad (s : State) (slot : Nat) (valid : Bool) : Byte :=
  if 1 < slot then 0x05 else if !valid then 0x06 else if decide (slot = 1) = s.sec.flash.active then 0x02 else 0

/-- FW_DOWNGRADE (R552). -/
def execFwDowngrade (slot : Byte) (valid : Bool) (version : Word) (s : State) : Out :=
  presence 0x10 1 (fun s => s.downgradeBad slot.toNat valid) slot.toNat version s

/-- IDENTITY_RESET (R552). -/
def execIdentityReset (s : State) : Out := presence 0x11 2 (fun s => if s.admitted.isEmpty then 0 else 0x02) 0 0 s

/-- DEBUG_UNLOCK (R552): `signed` by a root key, `digestOk` for this part's identity key, `counter` the record counter named. -/
def execDebugUnlock (signed digestOk : Bool) (counter : Word64) (s : State) : Out :=
  presence 0x12 3 (fun s => if !signed then 0x06 else if digestOk && counter = s.sec.flash.counter then 0 else 0x02) 0 0 s

/-- What speaks against an unfence of a gallery. -/
def State.unfenceBad (s : State) (gi : Nat) : Byte := if 1024 ≤ gi then 0x05 else if s.fencedInFlash gi then 0 else 0x02

/-- UNFENCE (R552). -/
def execUnfence (gi : BitVec 16) (s : State) : Out := presence 0x13 4 (fun s => s.unfenceBad gi.toNat) gi.toNat 0 s

/-- PRESENCE_STATUS (R565): the pending command and the seconds left. -/
def execPresenceStatus (s : State) : Out :=
  smb 0x14 false (fun s => s.reply 0 [s.sec.presence.zeroExtend 8, BitVec.ofNat 8 s.presenceLeft]) s

/-- The pending command ends with a status, which RESULT returns while no other command has come. -/
def State.endPresence (s : State) (st : Byte) : State :=
  { s with
    sec := { s.sec with presence := 0, alert := s.sec.alert ||| 8 }
    pins := { s.pins with smbStatus := if s.pins.smbStatus = 0x03 then st else s.pins.smbStatus } }

/-- Identity reset: the sealed record rebuilt, then a part reset. -/
def State.resetIdentity (s : State) : State :=
  let f := s.sec.flash
  let f1 := { f with salt := f.salt + 1, idReset := true, pinned := false, fences := [], sealBroken := false, lowered := false
                     counter := f.counter + 1 }
  ({ s with sec := { s.sec with flash := f1, walkAll := true } }).selfReset

/-- Unfence: the fence record is cleared, and the gallery is scrubbed to rejoin (12 R499). -/
def State.unfence (s : State) (gi : Nat) : State :=
  let f := s.sec.flash
  ({ s with sec := { s.sec with flash := { f with fences := SMap.set false f.fences gi false, counter := f.counter + 1 } } }).updGal gi
    (fun g => { g with scrubbing := true, scrubEnd := s.now + 2560 })

/-- PRESENCE_SHOWN (R551, R552): the pending command is carried out, if its condition still holds. -/
def execPresenceShown (s : State) : Out :=
  if s.sec.presence = 0 || s.sec.presAt + 60000000000 ≤ s.clk.tb3.toNat then .next s
  else
    let t := s.endPresence 0
    let f := s.sec.flash
    .next (match s.sec.presence.toNat with
      | 1 =>
        if s.downgradeBad s.sec.presArg true ≠ 0 then s.endPresence 0x02
        else
          let low := f.lowered || decide (s.sec.presVer.toNat < f.floor.toNat)
          let t1 := t.activate (decide (s.sec.presArg = 1)) s.sec.presVer
          { t1 with sec := { t1.sec with flash := { t1.sec.flash with lowered := low } } }
      | 2 => if s.admitted.isEmpty then t.resetIdentity else s.endPresence 0x02
      | 3 =>
        { t with sec := { t.sec with debug := true, keyErased := true, flash := { f with counter := f.counter + 1 } } }
      | _ => if s.unfenceBad s.sec.presArg ≠ 0 then s.endPresence 0x02 else t.unfence s.sec.presArg)

/-- PRESENCE_TIMEOUT (R552): 60 s without presence. -/
def execPresenceTimeout (s : State) : Out :=
  .next (if s.sec.presence = 0 then s else (s.waitTb3 (s.sec.presAt + 60000000000)).endPresence 0x04)

/-! ### JTAG (R567, Table 14.12) -/

/-- An instruction of the test access port, in the standby domain: what it leaves in the register that TDO shifts out, and what it
drives onto the pins. Log 77 (DEDUCED). -/
def jtag (code : Byte) (s : State) (f : State → Word × Option Word) : Out :=
  .next (if !(s.pwr.in54 || s.pwr.in12) then s
    else { s with pins := { s.pins with ir := code, tdo := (f s).1, driven := (f s).2 } })

/-- The pins that the scan drives: only in standby. -/
def State.scanDrives (s : State) : Option Word := if s.pwr.state = 1 then s.pins.driven else none

/-- EXTEST: drives the pins in standby, else BYPASS. What the scan captures is a free value. -/
def execExtest (pins : Word) (s : State) : Out :=
  if s.pwr.state = 1 then
    let n := s.freeCtr + 1
    jtag 0x00 { s with freeCtr := n } (fun s => (BitVec.ofNat 32 (Config.measured 6 s.freeCtr), some pins))
  else jtag 0x00 s (fun _ => (0, none))

/-- IDCODE: the version by stepping, the part number by grade. -/
def State.idcode (s : State) : Word :=
  let part : BitVec 16 := match s.cfg.grade with | .m => 0x0A14 | .b => 0x0A12 | .n => 0x0A10
  BitVec.ofNat 4 s.cfg.stepping.code ++ part ++ Config.jedec ++ 1#1

def execIdcode (s : State) : Out := jtag 0x01 s (fun s => (s.idcode, none))

/-- SAMPLE/PRELOAD: the levels of the scanned pins are shifted out, and drive nothing. -/
def execSamplePreload (pins : Word) (s : State) : Out :=
  jtag 0x02 { s with pins := { s.pins with scan := pins } } (fun _ => (pins, none))

/-- SMD_STATUS: SEC_STAT. -/
def execSmdStatus (s : State) : Out := jtag 0x10 s (fun s => (s.secStat, none))

/-- VENDOR_DEBUG: BYPASS until DEBUG_UNLOCK; then the spec does not say what the instruction does. Log 78 (DESIGN CHOICE). -/
def execVendorDebug (code : Byte) (s : State) : Out :=
  if s.sec.debug && 0x20 ≤ code.toNat && code.toNat < 0x30 then .refused .vendorInstruction else jtag code s (fun _ => (0, none))

/-- BYPASS, also for every code that Table 14.12 does not list. -/
def execBypass (code : Byte) (s : State) : Out := jtag code s (fun _ => (0, none))

end Sys2Proof.Machine
end

