-- ==== Sys2Proof/Machine/Dispatch.lean ====
section
/-! DEFINITION. One arm per command: one direct call of its meaning. -/
namespace Sys2Proof.Machine

/-- The command's effect on everything but the queue. -/
def exec (i : Instr) (s : State) : Host.Outcome State Fault Refusal :=
  match i with
  | .issueGroup ph ups => Sys2Proof.Machine.execIssueGroup ph ups s
  | .boostApply ph => Sys2Proof.Machine.execBoostApply ph s
  | .operationComplete ph g k => Sys2Proof.Machine.execOperationComplete ph g k s
  | .mldt ph g f ups => Sys2Proof.Machine.execMldt ph g f ups s
  | .mma ph g f ups => Sys2Proof.Machine.execMma ph g f ups s
  | .mclr ph g f => Sys2Proof.Machine.execMclr ph g f s
  | .mfill ph g f ups => Sys2Proof.Machine.execMfill ph g f ups s
  | .mspill ph g f ups => Sys2Proof.Machine.execMspill ph g f ups s
  | .mrd ph g f ups => Sys2Proof.Machine.execMrd ph g f ups s
  | .fadd ph g f => Sys2Proof.Machine.execFadd ph g f s
  | .fsub ph g f => Sys2Proof.Machine.execFsub ph g f s
  | .fmul ph g f => Sys2Proof.Machine.execFmul ph g f s
  | .fma ph g f => Sys2Proof.Machine.execFma ph g f s
  | .fmin ph g f => Sys2Proof.Machine.execFmin ph g f s
  | .fmax ph g f => Sys2Proof.Machine.execFmax ph g f s
  | .fcmpeq ph g f => Sys2Proof.Machine.execFcmpeq ph g f s
  | .fcmplt ph g f => Sys2Proof.Machine.execFcmplt ph g f s
  | .fcmple ph g f => Sys2Proof.Machine.execFcmple ph g f s
  | .fneg ph g f => Sys2Proof.Machine.execFneg ph g f s
  | .fabs ph g f => Sys2Proof.Machine.execFabs ph g f s
  | .iadd ph g f => Sys2Proof.Machine.execIadd ph g f s
  | .isub ph g f => Sys2Proof.Machine.execIsub ph g f s
  | .imul ph g f => Sys2Proof.Machine.execImul ph g f s
  | .and ph g f => Sys2Proof.Machine.execAnd ph g f s
  | .or ph g f => Sys2Proof.Machine.execOr ph g f s
  | .xor ph g f => Sys2Proof.Machine.execXor ph g f s
  | .shl ph g f => Sys2Proof.Machine.execShl ph g f s
  | .shr ph g f => Sys2Proof.Machine.execShr ph g f s
  | .sar ph g f => Sys2Proof.Machine.execSar ph g f s
  | .icmpeq ph g f => Sys2Proof.Machine.execIcmpeq ph g f s
  | .icmplt ph g f => Sys2Proof.Machine.execIcmplt ph g f s
  | .icmpltu ph g f => Sys2Proof.Machine.execIcmpltu ph g f s
  | .sel ph g f => Sys2Proof.Machine.execSel ph g f s
  | .mov ph g f => Sys2Proof.Machine.execMov ph g f s
  | .splat ph g f => Sys2Proof.Machine.execSplat ph g f s
  | .rot ph g f => Sys2Proof.Machine.execRot ph g f s
  | .iota ph g f => Sys2Proof.Machine.execIota ph g f s
  | .cvtn ph g f => Sys2Proof.Machine.execCvtn ph g f s
  | .cvtw ph g f => Sys2Proof.Machine.execCvtw ph g f s
  | .cvti ph g f => Sys2Proof.Machine.execCvti ph g f s
  | .cvtf ph g f => Sys2Proof.Machine.execCvtf ph g f s
  | .vredadd ph g f => Sys2Proof.Machine.execVredadd ph g f s
  | .vredmax ph g f => Sys2Proof.Machine.execVredmax ph g f s
  | .rcp ph g f => Sys2Proof.Machine.execRcp ph g f s
  | .div ph g f => Sys2Proof.Machine.execDiv ph g f s
  | .sqrt ph g f => Sys2Proof.Machine.execSqrt ph g f s
  | .rsqrt ph g f => Sys2Proof.Machine.execRsqrt ph g f s
  | .exp2 ph g f => Sys2Proof.Machine.execExp2 ph g f s
  | .log2 ph g f => Sys2Proof.Machine.execLog2 ph g f s
  | .ldh ph g f ups => Sys2Proof.Machine.execLdh ph g f ups s
  | .ldl ph g f ups => Sys2Proof.Machine.execLdl ph g f ups s
  | .ldx ph g f ups => Sys2Proof.Machine.execLdx ph g f ups s
  | .sth ph g f => Sys2Proof.Machine.execSth ph g f s
  | .stl ph g f => Sys2Proof.Machine.execStl ph g f s
  | .stx ph g f => Sys2Proof.Machine.execStx ph g f s
  | .csend ph g f ups => Sys2Proof.Machine.execCsend ph g f ups s
  | .awr ph g f ups => Sys2Proof.Machine.execAwr ph g f ups s
  | .ard ph g f ups => Sys2Proof.Machine.execArd ph g f ups s
  | .swr ph g f ups => Sys2Proof.Machine.execSwr ph g f ups s
  | .srd ph g f => Sys2Proof.Machine.execSrd ph g f s
  | .bayw ph g f ups => Sys2Proof.Machine.execBayw ph g f ups s
  | .bayr ph g f => Sys2Proof.Machine.execBayr ph g f s
  | .hld ph g f => Sys2Proof.Machine.execHld ph g f s
  | .hst ph g f ups => Sys2Proof.Machine.execHst ph g f ups s
  | .cfetch ph g f => Sys2Proof.Machine.execCfetch ph g f s
  | .fpa ph g f ups => Sys2Proof.Machine.execFpa ph g f ups s
  | .loop ph g c1 => Sys2Proof.Machine.execLoop ph g c1 s
  | .xset ph g f => Sys2Proof.Machine.execXset ph g f s
  | .xaddi ph g f => Sys2Proof.Machine.execXaddi ph g f s
  | .xadd ph g f => Sys2Proof.Machine.execXadd ph g f s
  | .xsub ph g f => Sys2Proof.Machine.execXsub ph g f s
  | .xand ph g f => Sys2Proof.Machine.execXand ph g f s
  | .xshli ph g f => Sys2Proof.Machine.execXshli ph g f s
  | .xshri ph g f => Sys2Proof.Machine.execXshri ph g f s
  | .xmul ph g f => Sys2Proof.Machine.execXmul ph g f s
  | .xmovv ph g f => Sys2Proof.Machine.execXmovv ph g f s
  | .xminu ph g f => Sys2Proof.Machine.execXminu ph g f s
  | .xlc ph g f => Sys2Proof.Machine.execXlc ph g f s
  | .psetn ph g f => Sys2Proof.Machine.execPsetn ph g f s
  | .pand ph g f => Sys2Proof.Machine.execPand ph g f s
  | .por ph g f => Sys2Proof.Machine.execPor ph g f s
  | .pnot ph g f => Sys2Proof.Machine.execPnot ph g f s
  | .token ph g f => Sys2Proof.Machine.execToken ph g f s
  | .bval ph g f => Sys2Proof.Machine.execBval ph g f s
  | .land ph g f => Sys2Proof.Machine.execLand ph g f s
  | .fpi ph g f => Sys2Proof.Machine.execFpi ph g f s
  | .fpout ph g f => Sys2Proof.Machine.execFpout ph g f s
  | .stairwellFrame => Sys2Proof.Machine.execStairwellFrame s
  | .stairwellLineArrival k crcOk => Sys2Proof.Machine.execStairwellLineArrival k crcOk s
  | .storeScrubRead ph ups => Sys2Proof.Machine.execStoreScrubRead ph ups s
  | .correctedErrorStorm ph g => Sys2Proof.Machine.execCorrectedErrorStorm ph g s
  | .tokenDelivery k => Sys2Proof.Machine.execTokenDelivery k s
  | .headFetch ph => Sys2Proof.Machine.execHeadFetch ph s
  | .headFetchComplete ph h => Sys2Proof.Machine.execHeadFetchComplete ph h s
  | .landingReport slice => Sys2Proof.Machine.execLandingReport slice s
  | .idleLandingStart slice => Sys2Proof.Machine.execIdleLandingStart slice s
  | .partReady slice => Sys2Proof.Machine.execPartReady slice s
  | .holdReportReceipt slice r => Sys2Proof.Machine.execHoldReportReceipt slice r s
  | .releaseReceipt slice r => Sys2Proof.Machine.execReleaseReceipt slice r s
  | .holdTimeout slice => Sys2Proof.Machine.execHoldTimeout slice s
  | .landingEnd slice => Sys2Proof.Machine.execLandingEnd slice s
  | .commitReportReceipt slice r => Sys2Proof.Machine.execCommitReportReceipt slice r s
  | .commitOutcomeReceipt slice o => Sys2Proof.Machine.execCommitOutcomeReceipt slice o s
  | .commitOutcomeTimeout slice => Sys2Proof.Machine.execCommitOutcomeTimeout slice s
  | .testWalkComplete ph g w => Sys2Proof.Machine.execTestWalkComplete ph g w s
  | .galleryScrubComplete ph g => Sys2Proof.Machine.execGalleryScrubComplete ph g s
  | .rejoinAdmission slice u => Sys2Proof.Machine.execRejoinAdmission slice u s
  | .idleRejoinTick => Sys2Proof.Machine.execIdleRejoinTick s
  | .galleryFence ph g => Sys2Proof.Machine.execGalleryFence ph g s
  | .stepAbortedNotice slice => Sys2Proof.Machine.execStepAbortedNotice slice s
  | .lateNoticeWrite q => Sys2Proof.Machine.execLateNoticeWrite q s
  | .memoryFrame stack ups => Sys2Proof.Machine.execMemoryFrame stack ups s
  | .slotSegmentArrival stack flight => Sys2Proof.Machine.execSlotSegmentArrival stack flight s
  | .patrolScrubRead stack ups => Sys2Proof.Machine.execPatrolScrubRead stack ups s
  | .refreshDebtTick stack => Sys2Proof.Machine.execRefreshDebtTick stack s
  | .urgentRefresh stack pc => Sys2Proof.Machine.execUrgentRefresh stack pc s
  | .stackTemperatureRead stack temp => Sys2Proof.Machine.execStackTemperatureRead stack temp s
  | .selfRefreshEntry stack => Sys2Proof.Machine.execSelfRefreshEntry stack s
  | .selfRefreshExit stack => Sys2Proof.Machine.execSelfRefreshExit stack s
  | .send p n => Sys2Proof.Machine.execSend p n s
  | .mcast p n => Sys2Proof.Machine.execMcast p n s
  | .recv p n => Sys2Proof.Machine.execRecv p n s
  | .reduce p n => Sys2Proof.Machine.execReduce p n s
  | .reduceCombine a k => Sys2Proof.Machine.execReduceCombine a k s
  | .copy p n => Sys2Proof.Machine.execCopy p n s
  | .free p n => Sys2Proof.Machine.execFree p n s
  | .tsend p n => Sys2Proof.Machine.execTsend p n s
  | .cont p n => Sys2Proof.Machine.execCont p n s
  | .timetableSegmentArrival p n flight => Sys2Proof.Machine.execTimetableSegmentArrival p n flight s
  | .missingParcel p n => Sys2Proof.Machine.execMissingParcel p n s
  | .tokenRecordDelivery p bay => Sys2Proof.Machine.execTokenRecordDelivery p bay s
  | .controlParcelRelay k => Sys2Proof.Machine.execControlParcelRelay k s
  | .epochParcelReceipt p h slice chip epoch sent => Sys2Proof.Machine.execEpochParcelReceipt p h slice chip epoch sent s
  | .shareAnnouncementReceipt p h slice sBays cBays => Sys2Proof.Machine.execShareAnnouncementReceipt p h slice sBays cBays s
  | .storageWrite p chip d => Sys2Proof.Machine.execStorageWrite p chip d s
  | .storageReadRequest p chip d ups => Sys2Proof.Machine.execStorageReadRequest p chip d ups s
  | .storageReadResponse p chip d => Sys2Proof.Machine.execStorageReadResponse p chip d s
  | .storageWriteAcknowledgement p chip d => Sys2Proof.Machine.execStorageWriteAcknowledgement p chip d s
  | .frameSlot p h => Sys2Proof.Machine.execFrameSlot p h s
  | .frameReceipt p h w => Sys2Proof.Machine.execFrameReceipt p h w s
  | .timeMarkSend p h => Sys2Proof.Machine.execTimeMarkSend p h s
  | .retryTimeExpiry p h => Sys2Proof.Machine.execRetryTimeExpiry p h s
  | .requestRepeat p h => Sys2Proof.Machine.execRequestRepeat p h s
  | .laneDegraded p lane => Sys2Proof.Machine.execLaneDegraded p lane s
  | .spareRequest p lane => Sys2Proof.Machine.execSpareRequest p lane s
  | .mirrorNotice p lane slot => Sys2Proof.Machine.execMirrorNotice p lane slot s
  | .switchNotice p lane => Sys2Proof.Machine.execSwitchNotice p lane s
  | .spareSubstitutionTimeout p => Sys2Proof.Machine.execSpareSubstitutionTimeout p s
  | .laneLossOfLock p lane => Sys2Proof.Machine.execLaneLossOfLock p lane s
  | .uncorrectableFrameBurst p h lane => Sys2Proof.Machine.execUncorrectableFrameBurst p h lane s
  | .retrainOrderedSets p h => Sys2Proof.Machine.execRetrainOrderedSets p h s
  | .trainingComplete p h r => Sys2Proof.Machine.execTrainingComplete p h r s
  | .linkResume p h farN => Sys2Proof.Machine.execLinkResume p h farN s
  | .fastRetrainTimeout p h => Sys2Proof.Machine.execFastRetrainTimeout p h s
  | .lossOfSignal p h => Sys2Proof.Machine.execLossOfSignal p h s
  | .linkRetrainWrite p h value => Sys2Proof.Machine.execLinkRetrainWrite p h value s
  | .beaconSend p h => Sys2Proof.Machine.execBeaconSend p h s
  | .beaconReceipt p h b => Sys2Proof.Machine.execBeaconReceipt p h b s
  | .beaconLost p h => Sys2Proof.Machine.execBeaconLost p h s
  | .foyerPoll words => Sys2Proof.Machine.execFoyerPoll words s
  | .nop hdr => Sys2Proof.Machine.execNop hdr s
  | .dmaIn hdr d data => Sys2Proof.Machine.execDmaIn hdr d data s
  | .dmaOut hdr d ups => Sys2Proof.Machine.execDmaOut hdr d ups s
  | .storRd hdr d => Sys2Proof.Machine.execStorRd hdr d s
  | .storWr hdr d ups => Sys2Proof.Machine.execStorWr hdr d ups s
  | .dmaGateOpen c => Sys2Proof.Machine.execDmaGateOpen c s
  | .dmaReadFailure c addr => Sys2Proof.Machine.execDmaReadFailure c addr s
  | .dmaTransferComplete c => Sys2Proof.Machine.execDmaTransferComplete c s
  | .book hdr slice start es => Sys2Proof.Machine.execBook hdr slice start es s
  | .tokenDescriptor hdr flight ord => Sys2Proof.Machine.execTokenDescriptor hdr flight ord s
  | .evict hdr flight slice ord => Sys2Proof.Machine.execEvict hdr flight slice ord s
  | .flightEviction slice flight => Sys2Proof.Machine.execFlightEviction slice flight s
  | .admitDesc hdr len r => Sys2Proof.Machine.execAdmitDesc hdr len r s
  | .retire hdr slice => Sys2Proof.Machine.execRetire hdr slice s
  | .regWriteDescriptor hdr off value ord slice => Sys2Proof.Machine.execRegWriteDescriptor hdr off value ord slice s
  | .regWriteAtOrdinal slice => Sys2Proof.Machine.execRegWriteAtOrdinal slice s
  | .chResume hdr chan => Sys2Proof.Machine.execChResume hdr chan s
  | .channelHaltWrite c value => Sys2Proof.Machine.execChannelHaltWrite c value s
  | .queueEnableWrite q value => Sys2Proof.Machine.execQueueEnableWrite q value s
  | .queueIdle q => Sys2Proof.Machine.execQueueIdle q s
  | .hostLinkReset why => Sys2Proof.Machine.execHostLinkReset why s
  | .tenantTelemetryWrite q => Sys2Proof.Machine.execTenantTelemetryWrite q s
  | .save slice => Sys2Proof.Machine.execSave slice s
  | .resume slice => Sys2Proof.Machine.execResume slice s
  | .restore slice => Sys2Proof.Machine.execRestore slice s
  | .watchdogExpiry core => Sys2Proof.Machine.execWatchdogExpiry core s
  | .paceLoopSample ph counts => Sys2Proof.Machine.execPaceLoopSample ph counts s
  | .paceShortfall ph => Sys2Proof.Machine.execPaceShortfall ph s
  | .regulatorFailure ph why mv => Sys2Proof.Machine.execRegulatorFailure ph why mv s
  | .powerWindow => Sys2Proof.Machine.execPowerWindow s
  | .thermalSensorRead t => Sys2Proof.Machine.execThermalSensorRead t s
  | .supplyThresholdCrossing sup mv => Sys2Proof.Machine.execSupplyThresholdCrossing sup mv s
  | .mainOn => Sys2Proof.Machine.execMainOn s
  | .pwrCtlMainWrite value => Sys2Proof.Machine.execPwrCtlMainWrite value s
  | .wakeRequest hi value => Sys2Proof.Machine.execWakeRequest hi value s
  | .sleepRequest hi value => Sys2Proof.Machine.execSleepRequest hi value s
  | .wakeGroupStart => Sys2Proof.Machine.execWakeGroupStart s
  | .hallScrubComplete ph => Sys2Proof.Machine.execHallScrubComplete ph s
  | .referenceLost => Sys2Proof.Machine.execReferenceLost s
  | .referenceTakenBack => Sys2Proof.Machine.execReferenceTakenBack s
  | .bootReferenceTimeout => Sys2Proof.Machine.execBootReferenceTimeout s
  | .counterSnapshotPublish => Sys2Proof.Machine.execCounterSnapshotPublish s
  | .boot b => Sys2Proof.Machine.execBoot b s
  | .rstNAssert => Sys2Proof.Machine.execRstNAssert s
  | .computeReset => Sys2Proof.Machine.execComputeReset s
  | .getId => Sys2Proof.Machine.execGetId s
  | .getStatus => Sys2Proof.Machine.execGetStatus s
  | .regRead off => Sys2Proof.Machine.execRegRead off s
  | .smbusRegWrite off value => Sys2Proof.Machine.execSmbusRegWrite off value s
  | .faultRead seq => Sys2Proof.Machine.execFaultRead seq s
  | .reset kind => Sys2Proof.Machine.execReset kind s
  | .main value => Sys2Proof.Machine.execMain value s
  | .attest nonce => Sys2Proof.Machine.execAttest nonce s
  | .attestRead off => Sys2Proof.Machine.execAttestRead off s
  | .fwWrite target off bytes => Sys2Proof.Machine.execFwWrite target off bytes s
  | .fwActivate slot valid version => Sys2Proof.Machine.execFwActivate slot valid version s
  | .clearAlert mask => Sys2Proof.Machine.execClearAlert mask s
  | .fwDowngrade slot valid version => Sys2Proof.Machine.execFwDowngrade slot valid version s
  | .identityReset => Sys2Proof.Machine.execIdentityReset s
  | .debugUnlock signed digestOk counter => Sys2Proof.Machine.execDebugUnlock signed digestOk counter s
  | .unfence gi => Sys2Proof.Machine.execUnfence gi s
  | .presenceStatus => Sys2Proof.Machine.execPresenceStatus s
  | .result => Sys2Proof.Machine.execResult s
  | .presenceShown => Sys2Proof.Machine.execPresenceShown s
  | .presenceTimeout => Sys2Proof.Machine.execPresenceTimeout s
  | .sealBreak => Sys2Proof.Machine.execSealBreak s
  | .extest pins => Sys2Proof.Machine.execExtest pins s
  | .idcode => Sys2Proof.Machine.execIdcode s
  | .samplePreload pins => Sys2Proof.Machine.execSamplePreload pins s
  | .smdStatus => Sys2Proof.Machine.execSmdStatus s
  | .vendorDebug code => Sys2Proof.Machine.execVendorDebug code s
  | .bypass code => Sys2Proof.Machine.execBypass code s
  | .timTbRateWrite b value => Sys2Proof.Machine.execTimTbRateWrite b value s
  | .timTbStepWrite b value => Sys2Proof.Machine.execTimTbStepWrite b value s
  | .timSnapTake value => Sys2Proof.Machine.execTimSnapTake value s
  | .tpulse n => Sys2Proof.Machine.execTpulse n s
  | .halVmapWrite ph value => Sys2Proof.Machine.execHalVmapWrite ph value s
  | .halModeWrite ph value => Sys2Proof.Machine.execHalModeWrite ph value s
  | .halPaceWrite ph value => Sys2Proof.Machine.execHalPaceWrite ph value s
  | .memCregWrite stack k isLen value => Sys2Proof.Machine.execMemCregWrite stack k isLen value s
  | .arcGlobalWrite value => Sys2Proof.Machine.execArcGlobalWrite value s
  | .arcPortCtlWrite p value => Sys2Proof.Machine.execArcPortCtlWrite p value s
  | .arcCtxWrite p n isB value => Sys2Proof.Machine.execArcCtxWrite p n isB value s
  | .timIdleWrite slice isW value => Sys2Proof.Machine.execTimIdleWrite slice isW value s
  | .setUpRegisterWrite off value => Sys2Proof.Machine.execSetUpRegisterWrite off value s
  | .fixedRatioStageFault => Sys2Proof.Machine.execFixedRatioStageFault s
  | .stewardMemoryUncorrectable => Sys2Proof.Machine.execStewardMemoryUncorrectable s
  | .resetResultTimeout => Sys2Proof.Machine.execResetResultTimeout s

end Sys2Proof.Machine
end

