-- ==== Sys2Proof/Machine/Step.lean ====
section
/-! DEFINITION. The step: the command at the front of the queue is carried out on the state with the queue's rest; on
an empty queue one tread passes.
-/
namespace Sys2Proof.Machine

/-- One step of the part (log entry 5: an empty queue lets one tread pass; a main-power stop that has begun ends). Log 1 (DESIGN CHOICE). Log 5 (DESIGN CHOICE). -/
def step (s : State) : Host.Outcome State Fault Refusal :=
  match s.pending with
  | [] => .next (s.passTreads 1).endStopping
  | c :: rest => exec c { s with pending := rest }

/-- The command that a table word spells put at the front of the queue; no word spells one. -/
def State.withFetchWord (s : State) (nbits w : Nat) : State :=
  match Sys2Proof.decodeTableWord nbits w with
  | some c => { s with pending := c :: s.pending }
  | none => s

end Sys2Proof.Machine
end

