-- ==== Sys2Proof/Safety.lean ====
section
/-! DEFINITION. What counts as a safe run, in the terms that statements use. -/
namespace Sys2Proof

/-- The canonical form of a memory image: addresses strictly rising and no entry equal to what an unlisted address
reads as. -/
def Memory.wf (m : List Host.Cell) : Bool := Machine.SMap.wf 0 m

/-- A state whose memories are in canonical form. -/
def Safe (s : Machine.State) : Prop := Memory.wf s.mem = true ∧ Memory.wf s.hostMem = true

end Sys2Proof
end

