-- ==== Sys2Proof/WellFormed.lean ====
section
/-! DEFINITION. Well-formed commands: a command of a gallery operation carries only field values that the encoding
tables of 05 give a meaning (05 R183).
-/
namespace Sys2Proof

/-- A gallery operation that a command issues: its hall, its gallery, the operation, and the check errors that have arisen. -/
structure Issued where
  ph : Fin 64
  g : Fin 16
  op : GOp
  ups : List Upset
  deriving DecidableEq, Repr

/-- The gallery operation that a command issues, none for the other commands. -/
def Instr.issued : Instr → Option Issued
  | .mldt ph g f ups => some ⟨ph, g, .mldt f, ups⟩
  | .mma ph g f ups => some ⟨ph, g, .mma f, ups⟩
  | .mclr ph g f => some ⟨ph, g, .mclr f, []⟩
  | .mfill ph g f ups => some ⟨ph, g, .mfill f, ups⟩
  | .mspill ph g f ups => some ⟨ph, g, .mspill f, ups⟩
  | .mrd ph g f ups => some ⟨ph, g, .mrd f, ups⟩
  | .fadd ph g f => some ⟨ph, g, .vec .fadd f, []⟩
  | .fsub ph g f => some ⟨ph, g, .vec .fsub f, []⟩
  | .fmul ph g f => some ⟨ph, g, .vec .fmul f, []⟩
  | .fma ph g f => some ⟨ph, g, .vec .fma f, []⟩
  | .fmin ph g f => some ⟨ph, g, .vec .fmin f, []⟩
  | .fmax ph g f => some ⟨ph, g, .vec .fmax f, []⟩
  | .fcmpeq ph g f => some ⟨ph, g, .vec .fcmpeq f, []⟩
  | .fcmplt ph g f => some ⟨ph, g, .vec .fcmplt f, []⟩
  | .fcmple ph g f => some ⟨ph, g, .vec .fcmple f, []⟩
  | .fneg ph g f => some ⟨ph, g, .vec .fneg f, []⟩
  | .fabs ph g f => some ⟨ph, g, .vec .fabs f, []⟩
  | .iadd ph g f => some ⟨ph, g, .vec .iadd f, []⟩
  | .isub ph g f => some ⟨ph, g, .vec .isub f, []⟩
  | .imul ph g f => some ⟨ph, g, .vec .imul f, []⟩
  | .and ph g f => some ⟨ph, g, .vec .and f, []⟩
  | .or ph g f => some ⟨ph, g, .vec .or f, []⟩
  | .xor ph g f => some ⟨ph, g, .vec .xor f, []⟩
  | .shl ph g f => some ⟨ph, g, .vec .shl f, []⟩
  | .shr ph g f => some ⟨ph, g, .vec .shr f, []⟩
  | .sar ph g f => some ⟨ph, g, .vec .sar f, []⟩
  | .icmpeq ph g f => some ⟨ph, g, .vec .icmpeq f, []⟩
  | .icmplt ph g f => some ⟨ph, g, .vec .icmplt f, []⟩
  | .icmpltu ph g f => some ⟨ph, g, .vec .icmpltu f, []⟩
  | .sel ph g f => some ⟨ph, g, .vec .sel f, []⟩
  | .mov ph g f => some ⟨ph, g, .vec .mov f, []⟩
  | .splat ph g f => some ⟨ph, g, .vec .splat f, []⟩
  | .rot ph g f => some ⟨ph, g, .vec .rot f, []⟩
  | .iota ph g f => some ⟨ph, g, .vec .iota f, []⟩
  | .cvtn ph g f => some ⟨ph, g, .cvt .cvtn f, []⟩
  | .cvtw ph g f => some ⟨ph, g, .cvt .cvtw f, []⟩
  | .cvti ph g f => some ⟨ph, g, .cvt .cvti f, []⟩
  | .cvtf ph g f => some ⟨ph, g, .cvt .cvtf f, []⟩
  | .vredadd ph g f => some ⟨ph, g, .vec .vredadd f, []⟩
  | .vredmax ph g f => some ⟨ph, g, .vec .vredmax f, []⟩
  | .rcp ph g f => some ⟨ph, g, .vec .rcp f, []⟩
  | .div ph g f => some ⟨ph, g, .vec .div f, []⟩
  | .sqrt ph g f => some ⟨ph, g, .vec .sqrt f, []⟩
  | .rsqrt ph g f => some ⟨ph, g, .vec .rsqrt f, []⟩
  | .exp2 ph g f => some ⟨ph, g, .vec .exp2 f, []⟩
  | .log2 ph g f => some ⟨ph, g, .vec .log2 f, []⟩
  | .ldh ph g f ups => some ⟨ph, g, .ldh f, ups⟩
  | .ldl ph g f ups => some ⟨ph, g, .ldl f, ups⟩
  | .ldx ph g f ups => some ⟨ph, g, .ldx f, ups⟩
  | .sth ph g f => some ⟨ph, g, .sth f, []⟩
  | .stl ph g f => some ⟨ph, g, .stl f, []⟩
  | .stx ph g f => some ⟨ph, g, .stx f, []⟩
  | .csend ph g f ups => some ⟨ph, g, .csend f, ups⟩
  | .awr ph g f ups => some ⟨ph, g, .awr f, ups⟩
  | .ard ph g f ups => some ⟨ph, g, .ard f, ups⟩
  | .swr ph g f ups => some ⟨ph, g, .swr f, ups⟩
  | .srd ph g f => some ⟨ph, g, .srd f, []⟩
  | .bayw ph g f ups => some ⟨ph, g, .bayw f, ups⟩
  | .bayr ph g f => some ⟨ph, g, .bayr f, []⟩
  | .hld ph g f => some ⟨ph, g, .hld f, []⟩
  | .hst ph g f ups => some ⟨ph, g, .hst f, ups⟩
  | .cfetch ph g f => some ⟨ph, g, .cfetch f, []⟩
  | .fpa ph g f ups => some ⟨ph, g, .fpa f, ups⟩
  | .loop ph g f => some ⟨ph, g, .loop f, []⟩
  | .xset ph g f => some ⟨ph, g, .xset f, []⟩
  | .xaddi ph g f => some ⟨ph, g, .xaddi f, []⟩
  | .xadd ph g f => some ⟨ph, g, .x3 .add f, []⟩
  | .xsub ph g f => some ⟨ph, g, .x3 .sub f, []⟩
  | .xand ph g f => some ⟨ph, g, .x3 .and f, []⟩
  | .xshli ph g f => some ⟨ph, g, .xshli f, []⟩
  | .xshri ph g f => some ⟨ph, g, .xshri f, []⟩
  | .xmul ph g f => some ⟨ph, g, .x3 .mul f, []⟩
  | .xmovv ph g f => some ⟨ph, g, .xmovv f, []⟩
  | .xminu ph g f => some ⟨ph, g, .x3 .minu f, []⟩
  | .xlc ph g f => some ⟨ph, g, .xlc f, []⟩
  | .psetn ph g f => some ⟨ph, g, .psetn f, []⟩
  | .pand ph g f => some ⟨ph, g, .pand f, []⟩
  | .por ph g f => some ⟨ph, g, .por f, []⟩
  | .pnot ph g f => some ⟨ph, g, .pnot f, []⟩
  | .token ph g f => some ⟨ph, g, .token f, []⟩
  | .bval ph g f => some ⟨ph, g, .bval f, []⟩
  | .land ph g f => some ⟨ph, g, .land f, []⟩
  | .fpi ph g f => some ⟨ph, g, .fpi f, []⟩
  | .fpout ph g f => some ⟨ph, g, .fpout f, []⟩
  | .issueGroup _ _ | .boostApply _ | .operationComplete _ _ _ | .stairwellFrame | .stairwellLineArrival _ _
  | .storeScrubRead _ _ | .correctedErrorStorm _ _ | .tokenDelivery _ | .headFetch _ | .headFetchComplete _ _
  | .landingReport _ | .idleLandingStart _ | .partReady _ | .holdReportReceipt _ _ | .releaseReceipt _ _
  | .holdTimeout _ | .landingEnd _ | .commitReportReceipt _ _ | .commitOutcomeReceipt _ _
  | .commitOutcomeTimeout _ | .testWalkComplete _ _ _ | .galleryScrubComplete _ _ | .rejoinAdmission _ _
  | .idleRejoinTick | .galleryFence _ _ | .stepAbortedNotice _ | .lateNoticeWrite _ | .memoryFrame _ _
  | .slotSegmentArrival _ _ | .patrolScrubRead _ _ | .refreshDebtTick _ | .urgentRefresh _ _
  | .stackTemperatureRead _ _ | .selfRefreshEntry _ | .selfRefreshExit _ | .send _ _ | .mcast _ _ | .recv _ _
  | .reduce _ _ | .reduceCombine _ _ | .copy _ _ | .free _ _ | .tsend _ _ | .cont _ _
  | .timetableSegmentArrival _ _ _ | .missingParcel _ _ | .tokenRecordDelivery _ _ | .controlParcelRelay _
  | .epochParcelReceipt _ _ _ _ _ _ | .shareAnnouncementReceipt _ _ _ _ _ | .storageWrite _ _ _
  | .storageReadRequest _ _ _ _ | .storageReadResponse _ _ _ | .storageWriteAcknowledgement _ _ _
  | .frameSlot _ _ | .frameReceipt _ _ _ | .timeMarkSend _ _ | .retryTimeExpiry _ _ | .requestRepeat _ _
  | .laneDegraded _ _ | .spareRequest _ _ | .mirrorNotice _ _ _ | .switchNotice _ _
  | .spareSubstitutionTimeout _ | .laneLossOfLock _ _ | .uncorrectableFrameBurst _ _ _
  | .retrainOrderedSets _ _ | .trainingComplete _ _ _ | .linkResume _ _ _ | .fastRetrainTimeout _ _
  | .lossOfSignal _ _ | .linkRetrainWrite _ _ _ | .beaconSend _ _ | .beaconReceipt _ _ _ | .beaconLost _ _
  | .foyerPoll _ | .nop _ | .dmaIn _ _ _ | .dmaOut _ _ _ | .storRd _ _ | .storWr _ _ _ | .dmaGateOpen _
  | .dmaReadFailure _ _ | .dmaTransferComplete _ | .book _ _ _ _ | .tokenDescriptor _ _ _ | .evict _ _ _ _
  | .flightEviction _ _ | .admitDesc _ _ _ | .retire _ _ | .regWriteDescriptor _ _ _ _ _ | .regWriteAtOrdinal _
  | .chResume _ _ | .channelHaltWrite _ _ | .queueEnableWrite _ _ | .queueIdle _ | .hostLinkReset _
  | .tenantTelemetryWrite _ | .save _ | .resume _ | .restore _ | .watchdogExpiry _ | .paceLoopSample _ _
  | .paceShortfall _ | .regulatorFailure _ _ _ | .powerWindow | .thermalSensorRead _
  | .supplyThresholdCrossing _ _ | .mainOn | .pwrCtlMainWrite _ | .wakeRequest _ _ | .sleepRequest _ _
  | .wakeGroupStart | .hallScrubComplete _ | .referenceLost | .referenceTakenBack | .bootReferenceTimeout
  | .counterSnapshotPublish | .boot _ | .rstNAssert | .computeReset | .getId | .getStatus | .regRead _
  | .smbusRegWrite _ _ | .faultRead _ | .reset _ | .main _ | .attest _ | .attestRead _ | .fwWrite _ _ _
  | .fwActivate _ _ _ | .clearAlert _ | .fwDowngrade _ _ _ | .identityReset | .debugUnlock _ _ _ | .unfence _
  | .presenceStatus | .result | .presenceShown | .presenceTimeout | .sealBreak | .extest _ | .idcode
  | .samplePreload _ | .smdStatus | .vendorDebug _ | .bypass _ | .timTbRateWrite _ _ | .timTbStepWrite _ _
  | .timSnapTake _ | .tpulse _ | .halVmapWrite _ _ | .halModeWrite _ _ | .halPaceWrite _ _
  | .memCregWrite _ _ _ _ | .arcGlobalWrite _ | .arcPortCtlWrite _ _ | .arcCtxWrite _ _ _ _
  | .timIdleWrite _ _ _ | .setUpRegisterWrite _ _ | .fixedRatioStageFault | .stewardMemoryUncorrectable
  | .resetResultTimeout => none

/-- The operation alone. -/
def Instr.gop (i : Instr) : Option GOp := i.issued.map (fun j => j.op)

/-- Well-formedness of a command. Log 94 (DEDUCED). -/
def Instr.wf (i : Instr) : Bool :=
  match i.gop with
  | some op => Machine.gopOk op
  | none => true

end Sys2Proof
end

