-- ==== Sys2Proof/Certificates/Slice0/Obligations.lean ====
section
/-! DEFINITION. The statements of the model for the provers: each says what a rule of the spec, or a property of the model, holds
of `exec` and `step`. `Claims` holds the terms that several statements share.
-/

/-! ### Terms of the statements -/

namespace Sys2Proof.Claims
open Sys2Proof.Machine

/-- The state in which the operation of `j` issues: the check errors have arisen, earlier operations that write its
registers have completed, and the treads for which its ports and units are held have passed (02 Table 02.1). -/
def start (s : State) (j : Issued) : State := s.atIssue j.ph.val j.g.val j.op j.ups

/-- The gallery of the operation at its issue. -/
def galOf (s : State) (j : Issued) : Gallery := (start s j).gal (galIdx j.ph.val j.g.val)

/-- The hall runs and the gallery is not fenced, and in the state in which the operation issues the conditions of 02 Table 02.1
are met: its units are free, no delivery is pending to its lines, and its paths have their entries and their room. -/
def ready (s : State) (j : Issued) : Bool :=
  s.issues j.ph.val j.g.val && (start s j).canIssue (s.who j.ph.val j.g.val) j.op

/-- The port that a TOKEN or BVAL names, where it names one, exists on the grade. -/
def portExists (s : State) : GOp → Bool
  | .token f => !(f.fab && decide (f.port.toNat < 30) && !s.hasPort f.port.toNat)
  | .bval f => !(f.fab && decide (f.port.toNat < 30) && !s.hasPort f.port.toNat)
  | _ => true

/-- The outcome in which the operation leaves state `t`: its energy is drawn and its ports and units are held too (13 R524, 05 R189). -/
def left (s : State) (j : Issued) (t : State) : Out :=
  .next ((t.spend (s.who j.ph.val j.g.val) j.op).holdUnits j.ph.val j.g.val ((start s j).loneSlot j.ph.val j.g.val j.op) j.op)

/-- The outcome in which the operation sets arithmetic flags `fl` and will write `ws` at its completion, and nothing else. -/
def results (s : State) (j : Issued) (fl : BitVec 8) (ws : List RegWrite) : Out :=
  let s1 := start s j
  left s j ((s1.setFlags (galIdx j.ph.val j.g.val) fl).inFlight (galIdx j.ph.val j.g.val)
    (s1.now + s1.latency j.ph.val j.op) ws)

/-- The write that advances an address register (05 R200). -/
def advance (g : Gallery) (inc : Bool) (r : BitVec 4) (n : Nat) : List RegWrite :=
  if inc then [.x r { bits := (g.xr r.toNat).bits + BitVec.ofNat 64 n, poison := (g.xr r.toNat).poison }] else []

/-- A binary32 NaN, and a signalling one. -/
def isNaN32 (x : Word) : Bool := decide (0x7F800000 < x.toNat % 2 ^ 31)
def isSig32 (x : Word) : Bool := isNaN32 x && !x.getLsbD 22

/-- The value that an operation without rounding gives lane `e` of V[vd] (05 Table 05.6). -/
def plainVal (g : Gallery) (f : VecF) (e : Nat) : VOp → Option Word
  | .iadd => some ((g.vr f.va.toNat).lane e + (g.vr f.vb.toNat).lane e)
  | .isub => some ((g.vr f.va.toNat).lane e - (g.vr f.vb.toNat).lane e)
  | .imul => some ((g.vr f.va.toNat).lane e * (g.vr f.vb.toNat).lane e)
  | .and => some ((g.vr f.va.toNat).lane e &&& (g.vr f.vb.toNat).lane e)
  | .or => some ((g.vr f.va.toNat).lane e ||| (g.vr f.vb.toNat).lane e)
  | .xor => some ((g.vr f.va.toNat).lane e ^^^ (g.vr f.vb.toNat).lane e)
  | .shl => some ((g.vr f.va.toNat).lane e <<< ((g.vr f.vb.toNat).lane e &&& 31))
  | .shr => some ((g.vr f.va.toNat).lane e >>> ((g.vr f.vb.toNat).lane e &&& 31))
  | .sar => some (((g.vr f.va.toNat).lane e).sshiftRight' ((g.vr f.vb.toNat).lane e &&& 31))
  | .mov => some ((g.vr f.va.toNat).lane e)
  | .fneg => some ((g.vr f.va.toNat).lane e ^^^ 0x80000000)
  | .fabs => some ((g.vr f.va.toNat).lane e &&& 0x7FFFFFFF)
  | .splat => some ((g.xr f.va.toNat).bits.truncate 32)
  | .iota => some (BitVec.ofNat 32 e)
  | .rot => some ((g.vr f.va.toNat).lane ((e + f.vb.toNat) % 64))
  | _ => none

/-- The relation of a compare of integers. -/
def intRel (a b : Word) : VOp → Option Bool
  | .icmpeq => some (decide (a = b))
  | .icmplt => some (decide (a.toInt < b.toInt))
  | .icmpltu => some (decide (a.toNat < b.toNat))
  | _ => none

/-- The value that address arithmetic gives X[xd], with its poison, bit for bit (05 Table 05.11). -/
def addressVal (g : Gallery) : GOp → Option (BitVec 4 × Word64 × Bool)
  | .xaddi f => some (f.xd, (g.xr f.xa.toNat).bits + BitVec.ofInt 64 f.imm.toInt, (g.xr f.xa.toNat).poison)
  | .x3 o f =>
    let a := g.xr f.xa.toNat
    let b := g.xr f.xb.toNat
    some (f.xd, (match o with
      | .add => a.bits + b.bits
      | .sub => a.bits - b.bits
      | .and => a.bits &&& b.bits
      | .mul => a.bits * b.bits
      | .minu => BitVec.ofNat 64 (min a.bits.toNat b.bits.toNat)), a.poison || b.poison)
  | .xshli f => some (f.xd, BitVec.ofNat 64 ((g.xr f.xa.toNat).bits.toNat * 2 ^ f.sh.toNat), (g.xr f.xa.toNat).poison)
  | .xshri f => some (f.xd, BitVec.ofNat 64 ((g.xr f.xa.toNat).bits.toNat / 2 ^ f.sh.toNat), (g.xr f.xa.toNat).poison)
  | .xmovv f => some (f.xd, BitVec.ofNat 64 ((g.vr f.va.toNat).lane f.lane.toNat).toNat,
      (g.vr f.va.toNat).poison.getLsbD f.lane.toNat)
  | .xlc f => some (f.xd, BitVec.ofNat 64 (g.loops.getD f.level.toNat {}).iter, false)
  | _ => none

/-- A load's destination, effective offset, length and step (05 Table 05.8). -/
def loadForm (g : Gallery) : GOp → Option (Nat × Nat × BitVec 4 × Bool)
  | .ldh f => some (storeOff (effAddr (g.xr f.xa.toNat).bits f.imm 256) 256, 256, f.xa, f.inc)
  | .ldl f => some (storeOff (effAddr (g.xr f.xa.toNat).bits f.imm 512) 512, 512, f.xa, f.inc)
  | .ldx f => some (storeOff (effAddr (g.xr f.xa.toNat).bits f.imm 8) 8, 8, f.xa, f.inc)
  | _ => none

/-- A store's offset in the gallery store and its width in bytes: the address that the meanings compute. -/
def storeForm (g : Gallery) : GOp → Option (StF × Nat × Nat)
  | .sth f => some (f, storeOff (effAddr (g.xr f.xa.toNat).bits f.imm 256) 256, 256)
  | .stl f => some (f, storeOff (effAddr (g.xr f.xa.toNat).bits f.imm 512) 512, 512)
  | .stx f => some (f, storeOff (effAddr (g.xr f.xa.toNat).bits f.imm 8) 8, 8)
  | _ => none

/-- Byte `b` that a store writes, none where its lane is disabled (05 R192, R214). -/
def storedByte (g : Gallery) (op : GOp) (b : Nat) : Option Byte :=
  match op with
  | .sth f => if (enabled g f.p f.pn).getLsbD (b / 4) then some ((g.vr f.vs.toNat).bits.extractLsb' (8 * b) 8) else none
  | .stl f =>
    if (enabled g f.p f.pn).getLsbD (b % 256 / 4) then
      some ((g.vr (f.vs.toNat + b / 256)).bits.extractLsb' (8 * (b % 256)) 8)
    else none
  | .stx f => some ((g.xr (f.vs.toNat % 16)).bits.extractLsb' (8 * b) 8)
  | _ => none

/-- TREAD `t` comes: it has come, or TREAD counts and reaches it. -/
def comes (s : State) (t : Nat) : Prop := t ≤ s.now ∨ (s.clk.running = true ∧ t < 2 ^ 64)

/-- The registers of a gallery. -/
def sameRegs (g h : Gallery) : Prop :=
  g.v = h.v ∧ g.x = h.x ∧ g.p = h.p ∧ g.f = h.f ∧ g.banks = h.banks ∧ g.active = h.active ∧ g.shadow = h.shadow

end Sys2Proof.Claims

open Sys2Proof Sys2Proof.Machine

/-! ### The block -/

/-- The step carries out the command at the front of the queue on the state with the queue's rest: the model's reading of how
commands come to the part (log entry 1, DESIGN CHOICE). -/
def Obligations.StepRunsTheFrontCommand : Prop :=
  ∀ (s : State) (c : Instr) (rest : List Instr),
    Machine.step { s with pending := c :: rest } = Machine.exec c { s with pending := rest }

/-- On an empty queue one tread passes (log entry 5, DESIGN CHOICE): TREAD counts when it runs, and nothing but time and the end of a stop of the
main domain that has begun changes. -/
def Obligations.IdleStepPassesOneTread : Prop :=
  ∀ s : State, s.pending = [] → s.pwr.state ≠ 4#3 → s.clk.frac < 8 →
    ∃ t, Machine.step s = .next t ∧ { t with clk := s.clk } = s ∧ t.clk.running = s.clk.running
      ∧ t.clk.tread = (if s.clk.running then s.clk.tread + 1 else s.clk.tread)
      ∧ t.clk.tb3.toNat * 8 + t.clk.frac = s.clk.tb3.toNat * 8 + s.clk.frac + 5 - (if t.clk.tb3 < s.clk.tb3 then 2 ^ 67 else 0)

/-- No command changes the queue of waiting commands. -/
def Obligations.ExecLeavesTheQueue : Prop :=
  ∀ (c : Instr) (s t : State), Machine.exec c s = .next t → t.pending = s.pending

/-- The memories of the part and of the host stay in canonical form (log entry 10, DESIGN CHOICE), whatever command is carried out. -/
def Obligations.StepKeepsSafe : Prop :=
  ∀ s t : State, Safe s → Machine.step s = .next t → Safe t

/-- The state after reset has its memories in canonical form. -/
def Obligations.ResetIsSafe : Prop := Safe State.reset

/-! ### Gallery operations: issue and completion -/

/-- A gallery operation whose fields hold no reserved value, and whose conditions hold, takes effect on the state in which the
earlier operations that write its registers have completed, and draws its energy: the next state is that of its own effect. It
holds for each of the 84 operations: MLDT MMA MCLR MFILL MSPILL MRD FADD FSUB FMUL FMA FMIN FMAX FCMPEQ FCMPLT FCMPLE FNEG FABS IADD
ISUB IMUL AND OR XOR SHL SHR SAR ICMPEQ ICMPLT ICMPLTU SEL MOV SPLAT ROT IOTA CVTN CVTW CVTI CVTF VREDADD VREDMAX RCP DIV SQRT RSQRT
EXP2 LOG2 LDH LDL LDX STH STL STX CSEND AWR ARD SWR SRD BAYW BAYR HLD HST CFETCH FPA LOOP XSET XADDI XADD XSUB XAND XSHLI XSHRI XMUL
XMOVV XMINU XLC PSETN PAND POR PNOT TOKEN BVAL LAND FPI FPOUT. -/
def Obligations.GalleryOperationIssues : Prop :=
  ∀ (i : Instr) (j : Issued) (s : State), i.issued = some j → gopOk j.op = true → Claims.portExists s j.op = true →
    Claims.ready s j = true →
    Machine.exec i s =
      Claims.left s j (runOp (Claims.start s j) (Claims.start s j) (s.who j.ph.val j.g.val) j.op)

/-- A gallery operation whose conditions do not hold waits: nothing changes. A hall that is not running and a fenced gallery issue
nothing.
An operation with a value that its encoding table reserves has no effect: it stops with the fault of reserved fields. One
that names a port which the grade does not have stops with the fault of absent units. -/
def Obligations.GalleryOperationWaitsOrStops : Prop :=
  (∀ (i : Instr) (j : Issued) (s : State), i.issued = some j → gopOk j.op = true → Claims.portExists s j.op = true →
    Claims.ready s j = false → Machine.exec i s = .next s)
  ∧ (∀ (i : Instr) (j : Issued) (s : State), i.issued = some j →
    (Claims.portExists s j.op = false → Machine.exec i s = .fault .absentUnit)
      ∧ (Claims.portExists s j.op = true → gopOk j.op = false → Machine.exec i s = .fault .reservedField))

/-- Results reach their registers at completion: the operation leaves the list of operations in flight, and its result stands in
the register; a suspect gallery's result is poisoned. X0 always reads 0 and P0 all ones, never poisoned; writes to them are discarded. Nothing else
changes.
In the as-A0 mode an operation completes no earlier than its budget. -/
def Obligations.ResultsAreWrittenAtCompletion : Prop :=
  (∀ (ph : Fin 64) (g : Fin 16) (k : Nat) (s : State) (due : Nat),
    let gi := galIdx ph.val g.val
    (s.hall ph.val).reg.asA0 = false →
    (∀ (r : BitVec 6) (c : VCell), (s.gal gi).inflight[k]? = some ⟨due, [.v r c]⟩ →
      ∃ t, Machine.exec (.operationComplete ph g k) s = .next t ∧ { t with gals := s.gals } = s
        ∧ (∀ gj, gj ≠ gi → t.gal gj = s.gal gj)
        ∧ (t.gal gi).vr r.toNat = (if (s.gal gi).cond = .suspect then { c with poison := BitVec.allOnes 64 } else c)
        ∧ (∀ q, q ≠ r.toNat → (t.gal gi).vr q = (s.gal gi).vr q)
        ∧ { t.gal gi with v := (s.gal gi).v, inflight := (s.gal gi).inflight, doneAt := (s.gal gi).doneAt } = s.gal gi
        ∧ (t.gal gi).inflight = (s.gal gi).inflight.eraseIdx k)
    ∧ (∀ (r : BitVec 4) (c : XCell), (s.gal gi).inflight[k]? = some ⟨due, [.x r c]⟩ →
      ∃ t, Machine.exec (.operationComplete ph g k) s = .next t ∧ { t with gals := s.gals } = s
        ∧ (∀ gj, gj ≠ gi → t.gal gj = s.gal gj)
        ∧ (t.gal gi).xr r.toNat = (if r = 0 then {}
            else if (s.gal gi).cond = .suspect then { c with poison := true } else c)
        ∧ (∀ q, q ≠ r.toNat → (t.gal gi).xr q = (s.gal gi).xr q)
        ∧ { t.gal gi with x := (s.gal gi).x, inflight := (s.gal gi).inflight, doneAt := (s.gal gi).doneAt } = s.gal gi
        ∧ (t.gal gi).inflight = (s.gal gi).inflight.eraseIdx k)
    ∧ (∀ (r : BitVec 3) (c : PCell), (s.gal gi).inflight[k]? = some ⟨due, [.p r c]⟩ →
      ∃ t, Machine.exec (.operationComplete ph g k) s = .next t ∧ { t with gals := s.gals } = s
        ∧ (∀ gj, gj ≠ gi → t.gal gj = s.gal gj)
        ∧ (t.gal gi).pr r.toNat = (if r = 0 then { bits := BitVec.allOnes 64, poison := false }
            else if (s.gal gi).cond = .suspect then { c with poison := true } else c)
        ∧ (∀ q, q ≠ r.toNat → (t.gal gi).pr q = (s.gal gi).pr q)
        ∧ { t.gal gi with p := (s.gal gi).p, inflight := (s.gal gi).inflight, doneAt := (s.gal gi).doneAt } = s.gal gi
        ∧ (t.gal gi).inflight = (s.gal gi).inflight.eraseIdx k))
  ∧ ((∀ (ph : Fin 64) (g : Fin 16) (k : Nat) (s : State) (o : InFlight),
    (s.gal (galIdx ph.val g.val)).inflight[k]? = some o → (s.hall ph.val).reg.asA0 = true → s.clk.running = true →
    o.due < 2 ^ 64 →
    ∃ t, Machine.exec (.operationComplete ph g k) s = .next t ∧ o.due ≤ t.now)
  ∧ (∀ x : Gallery, x.xr 0 = ⟨0, false⟩ ∧ x.pr 0 = ⟨BitVec.allOnes 64, false⟩))

/-- The arithmetic flags are sticky: no gallery operation, issued or completing, clears one of any gallery. -/
def Obligations.ArithmeticFlagsAreSticky : Prop :=
  ∀ (i : Instr) (s t : State), (i.issued.isSome = true ∨ ∃ ph g k, i = .operationComplete ph g k) →
    Machine.exec i s = .next t → ∀ gi, (t.gal gi).arith &&& (s.gal gi).arith = (s.gal gi).arith

/-! ### Vector operations -/

/-- The operations that neither round nor reduce (IADD ISUB IMUL AND OR XOR SHL SHR SAR MOV SPLAT ROT IOTA FNEG FABS) give every
enabled lane the value of Table 05.6, poisoned when a source or the predicate is; disabled lanes keep value and poison; no flag is
set and nothing else is written. -/
def Obligations.LaneOperationsGiveTheirValues : Prop :=
  ∀ (i : Instr) (s : State) (ph : Fin 64) (gn : Fin 16) (o : VOp) (f : VecF) (v : Nat → Word),
    let j : Issued := ⟨ph, gn, .vec o f, []⟩
    let g := Claims.galOf s j
    i.issued = some j → gopOk j.op = true → Claims.ready s j = true →
    (∀ e < 64, Claims.plainVal g f e o = some (v e)) →
    ∃ c : VCell, Machine.exec i s = Claims.results s j 0 [.v f.vd c]
      ∧ (∀ e < 64, c.lane e = if (enabled g f.p f.pn).getLsbD e then v e else (g.vr f.vd.toNat).lane e)
      ∧ (∀ e < 64, (enabled g f.p f.pn).getLsbD e = false →
          c.poison.getLsbD e = (g.vr f.vd.toNat).poison.getLsbD e)
      ∧ (∀ e < 64, (enabled g f.p f.pn).getLsbD e = true → (g.pr f.p.toNat).poison = true → c.poison.getLsbD e = true)
      ∧ (∀ e < 64, (enabled g f.p f.pn).getLsbD e = true → vopReadsVb o = true →
          (g.vr f.vb.toNat).poison.getLsbD e = true → c.poison.getLsbD e = true)

/-- FADD, FSUB, FMUL, FMA, FMIN, FMAX and the function-unit operations (RCP DIV SQRT RSQRT EXP2 LOG2) write V[vd] and set
arithmetic flags, and nothing else; disabled lanes keep value and poison. A NaN operand gives the canonical NaN of binary32; a
signalling one sets the invalid flag. FMIN and FMAX of two numbers give one of them. -/
def Obligations.NaNResultsAreCanonical : Prop :=
  ∀ (i : Instr) (s : State) (ph : Fin 64) (gn : Fin 16) (o : VOp) (f : VecF),
    let j : Issued := ⟨ph, gn, .vec o f, []⟩
    let g := Claims.galOf s j
    let a := fun e => (g.vr f.va.toNat).lane e
    let b := fun e => (g.vr f.vb.toNat).lane e
    let src := fun e => [a e] ++ (if vopReadsVb o then [b e] else []) ++ (if o = .fma then [(g.vr f.vc.toNat).lane e] else [])
    i.issued = some j → gopOk j.op = true → Claims.ready s j = true →
    o ∈ [VOp.fadd, .fsub, .fmul, .fma, .fmin, .fmax, .rcp, .div, .sqrt, .rsqrt, .exp2, .log2] →
    ∃ (c : VCell) (fl : BitVec 8), Machine.exec i s = Claims.results s j fl [.v f.vd c]
      ∧ (∀ e < 64, (enabled g f.p f.pn).getLsbD e = false →
          c.lane e = (g.vr f.vd.toNat).lane e ∧ c.poison.getLsbD e = (g.vr f.vd.toNat).poison.getLsbD e)
      ∧ (∀ e < 64, (enabled g f.p f.pn).getLsbD e = true → (src e).any Claims.isNaN32 = true →
          c.lane e = 0x7FC00000#32 ∧ ((src e).any Claims.isSig32 = true → fl.getLsbD 4 = true))
      ∧ (∀ e < 64, (enabled g f.p f.pn).getLsbD e = true → (src e).any Claims.isNaN32 = false → (o = .fmin ∨ o = .fmax) →
          c.lane e = a e ∨ c.lane e = b e)

/-- A compare writes the enabled lanes' bits of P[vd] and keeps the others: ICMPEQ, ICMPLT and ICMPLTU the relation of the two
lanes; FCMPEQ, FCMPLT and FCMPLE give 0 where an operand is NaN.
SEL takes each lane, with its poison, from the operand that the predicate selects; a poisoned predicate poisons every lane. -/
def Obligations.ComparesAndSelections : Prop :=
  (∀ (i : Instr) (s : State) (ph : Fin 64) (gn : Fin 16) (o : VOp) (f : VecF),
    let j : Issued := ⟨ph, gn, .vec o f, []⟩
    let g := Claims.galOf s j
    let a := fun e => (g.vr f.va.toNat).lane e
    let b := fun e => (g.vr f.vb.toNat).lane e
    i.issued = some j → gopOk j.op = true → Claims.ready s j = true → vopIsCmp o = true →
    ∃ (c : PCell) (fl : BitVec 8), Machine.exec i s = Claims.results s j fl [.p (f.vd.truncate 3) c]
      ∧ (∀ e < 64, (enabled g f.p f.pn).getLsbD e = false → c.bits.getLsbD e = (g.pr f.vd.toNat).bits.getLsbD e)
      ∧ (∀ e < 64, ∀ r, (enabled g f.p f.pn).getLsbD e = true → Claims.intRel (a e) (b e) o = some r →
          c.bits.getLsbD e = r)
      ∧ (∀ e < 64, (enabled g f.p f.pn).getLsbD e = true → o ∈ [VOp.fcmpeq, .fcmplt, .fcmple] →
          (Claims.isNaN32 (a e) || Claims.isNaN32 (b e)) = true → c.bits.getLsbD e = false))
  ∧ (∀ (s : State) (ph : Fin 64) (gn : Fin 16) (f : VecF),
    let j : Issued := ⟨ph, gn, .vec .sel f, []⟩
    let g := Claims.galOf s j
    let src := fun e => if (enabled g f.p f.pn).getLsbD e then g.vr f.va.toNat else g.vr f.vb.toNat
    gopOk j.op = true → Claims.ready s j = true →
    ∃ c : VCell, Machine.exec (.sel ph gn f) s = Claims.results s j 0 [.v f.vd c]
      ∧ ∀ e < 64, c.lane e = (src e).lane e
        ∧ c.poison.getLsbD e = ((g.pr f.p.toNat).poison || (src e).poison.getLsbD e))

/-- VREDADD and VREDMAX write one value to all 64 lanes; the maximum with one lane enabled whose value is a number is that
value.
A conversion (CVTN CVTW CVTI CVTF) writes V[vd] and, when adv is 1, advances its counter register by 64; the lanes of CVTW, CVTI and CVTF that the
predicate turns off keep value and poison. -/
def Obligations.ReductionsAndConversions : Prop :=
  (∀ (i : Instr) (s : State) (ph : Fin 64) (gn : Fin 16) (o : VOp) (f : VecF),
    let j : Issued := ⟨ph, gn, .vec o f, []⟩
    let g := Claims.galOf s j
    i.issued = some j → gopOk j.op = true → Claims.ready s j = true → (o = .vredadd ∨ o = .vredmax) →
    ∃ (c : VCell) (fl : BitVec 8) (v : Word), Machine.exec i s = Claims.results s j fl [.v f.vd c]
      ∧ (∀ e < 64, c.lane e = v)
      ∧ (∀ n < 64, o = .vredmax → enabled g f.p f.pn = BitVec.twoPow 64 n →
          Claims.isNaN32 ((g.vr f.va.toNat).lane n) = false → v = (g.vr f.va.toNat).lane n ∧ fl = 0))
  ∧ (∀ (i : Instr) (s : State) (ph : Fin 64) (gn : Fin 16) (o : CvOp) (f : CvtF),
    let j : Issued := ⟨ph, gn, .cvt o f, []⟩
    let g := Claims.galOf s j
    i.issued = some j → gopOk j.op = true → Claims.ready s j = true →
    ∃ (c : VCell) (fl : BitVec 8),
      Machine.exec i s = Claims.results s j fl
        (.v f.vd c :: Claims.advance g f.adv (BitVec.ofNat 4 (2 * f.xk.toNat + 1)) 64)
      ∧ (enabled g f.p f.pn = 0 → fl = 0)
      ∧ (∀ e < 64, o ≠ .cvtn → (enabled g f.p f.pn).getLsbD e = false →
          c.lane e = (g.vr f.vd.toNat).lane e ∧ c.poison.getLsbD e = (g.vr f.vd.toNat).poison.getLsbD e)
      ∧ (∀ e < 64, o = .cvtf → (enabled g f.p f.pn).getLsbD e = true → (g.vr f.va.toNat).lane e = 0 → c.lane e = 0))

/-! ### The control slot -/

/-- Address arithmetic (XADDI XADD XSUB XAND XMUL XMINU XSHLI XSHRI XMOVV XLC) writes its value, modulo 2^64, to X[xd], poisoned
when a source is; nothing else is written.
XSET places its 16 bits in the named chunk; with keep the other bits stay, without it they become 0. PSETN enables the lowest
n lanes; PAND, POR and PNOT combine predicates bit by bit. -/
def Obligations.AddressAndPredicateOperations : Prop :=
  (∀ (i : Instr) (j : Issued) (s : State) (xd : BitVec 4) (v : Word64) (p : Bool),
    i.issued = some j → Claims.ready s j = true → Claims.addressVal (Claims.galOf s j) j.op = some (xd, v, p) →
    Machine.exec i s = Claims.results s j 0 [.x xd ⟨v, p⟩])
  ∧ (∀ (s : State) (ph : Fin 64) (gn : Fin 16),
    (∀ f : XsetF, let j : Issued := ⟨ph, gn, .xset f, []⟩
      let old := (Claims.galOf s j).xr f.xd.toNat
      Claims.ready s j = true →
      ∃ c : XCell, Machine.exec (.xset ph gn f) s = Claims.results s j 0 [.x f.xd c]
        ∧ (∀ n < 64, c.bits.getLsbD n = if n / 16 = f.chunk.toNat then f.imm.getLsbD (n % 16)
            else (f.keep && old.bits.getLsbD n))
        ∧ c.poison = (f.keep && old.poison))
    ∧ (∀ f : PsetnF, let j : Issued := ⟨ph, gn, .psetn f, []⟩
      gopOk j.op = true → Claims.ready s j = true →
      ∃ c : PCell, Machine.exec (.psetn ph gn f) s = Claims.results s j 0 [.p f.pd c]
        ∧ c.poison = false ∧ ∀ n < 64, c.bits.getLsbD n = decide (n < f.n.toNat))
    ∧ (∀ f : P3F, let j : Issued := ⟨ph, gn, .pand f, []⟩
      let g := Claims.galOf s j
      Claims.ready s j = true →
      Machine.exec (.pand ph gn f) s = Claims.results s j 0
        [.p f.pd ⟨(g.pr f.pa.toNat).bits &&& (g.pr f.pb.toNat).bits,
          (g.pr f.pa.toNat).poison || (g.pr f.pb.toNat).poison⟩])
    ∧ (∀ f : P3F, let j : Issued := ⟨ph, gn, .por f, []⟩
      let g := Claims.galOf s j
      Claims.ready s j = true →
      Machine.exec (.por ph gn f) s = Claims.results s j 0
        [.p f.pd ⟨(g.pr f.pa.toNat).bits ||| (g.pr f.pb.toNat).bits,
          (g.pr f.pa.toNat).poison || (g.pr f.pb.toNat).poison⟩])
    ∧ (∀ f : P3F, let j : Issued := ⟨ph, gn, .pnot f, []⟩
      let g := Claims.galOf s j
      gopOk j.op = true → Claims.ready s j = true →
      Machine.exec (.pnot ph gn f) s = Claims.results s j 0
        [.p f.pd ⟨~~~(g.pr f.pa.toNat).bits, (g.pr f.pa.toNat).poison⟩]))

/-- LOOP opens one level; TOKEN and BVAL with fab = 0 hand the stair controllers one token for ordinal k + delta, k the ordinal of
the first landing to start from now on, and a BVAL carries X[xa][15:0], each due at its latency; the first LAND of a landing opens it
where the landing table of the hall's flight places it, and without a table at the scheduled tread of its bundle with the width and
the report tread of its fields, and its hall stops. -/
def Obligations.LoopTokenBvalAndLand : Prop :=
  ∀ (s : State) (ph : Fin 64) (gn : Fin 16),
    let gi := galIdx ph.val gn.val
    (∀ c1 : BitVec 16, let j : Issued := ⟨ph, gn, .loop c1, []⟩
      Claims.ready s j = true →
      Machine.exec (.loop ph gn c1) s = Claims.left s j ((Claims.start s j).updGal gi (fun g =>
        { g with loops := g.loops ++ [⟨c1.toNat + 1, 0, ((Claims.start s j).hall ph.val).iss.pc + 1⟩] })))
    ∧ (∀ f : TokenF, let j : Issued := ⟨ph, gn, .token f, []⟩
      let s1 := Claims.start s j
      let k := s1.hallSlice ph.val
      f.fab = false → gopOk j.op = true → Claims.ready s j = true →
      Machine.exec (.token ph gn f) s = Claims.left s j { s1 with stair := { s1.stair with
        transit := s1.stair.transit ++ [⟨false, f.flight.toNat, (s1.sl k).nextOrd + BitVec.ofNat 32 f.delta.toNat, 0,
          BitVec.ofNat 8 k, s1.now + s1.latency ph.val (.token f), (s1.hall ph.val).reg.asA0⟩] } })
    ∧ (∀ f : BvalF, let j : Issued := ⟨ph, gn, .bval f, []⟩
      let s1 := Claims.start s j
      let k := s1.hallSlice ph.val
      f.fab = false → gopOk j.op = true → Claims.ready s j = true →
      Machine.exec (.bval ph gn f) s = Claims.left s j { s1 with stair := { s1.stair with
        transit := s1.stair.transit ++ [⟨true, 0, (s1.sl k).nextOrd + BitVec.ofNat 32 f.delta.toNat,
          ((s1.gal gi).xr f.xa.toNat).bits.truncate 16, BitVec.ofNat 8 k, s1.now + s1.latency ph.val (.bval f),
          (s1.hall ph.val).reg.asA0⟩] } })
    ∧ (∀ (f : LandF) (k : Nat), let j : Issued := ⟨ph, gn, .land f, []⟩
      let s1 := Claims.start s j
      let table := (s1.flight (s1.hall ph.val).iss.flight).bind Flight.shape
      gopOk j.op = true → Claims.ready s j = true → (s1.hall ph.val).mapped = some k → (s1.sl k).phase = .running →
      ∃ t, Machine.exec (.land ph gn f) s = .next t ∧ (t.sl k).phase = .landing ∧ (t.sl k).started = true
        ∧ (t.sl k).land.ord = (s1.sl k).nextOrd ∧ (t.hall ph.val).iss.stopped = true
        ∧ (table = none → (t.sl k).land.a = (s1.hall ph.val).iss.sched ∧ (t.sl k).land.w = 4 * (f.w4.toNat + 1)
          ∧ (t.sl k).land.d = 4 * f.d4.toNat ∧ (t.sl k).land.commit = f.commit ∧ (t.sl k).land.quiesce = f.quiesce
          ∧ (t.sl k).land.branch = f.branch ∧ (t.sl k).land.last = f.last)
        ∧ (∀ e, table = some e → (t.sl k).land.a = e.a ∧ (t.sl k).land.w = e.w ∧ (t.sl k).land.d = e.d
          ∧ (t.sl k).land.commit = e.commit ∧ (t.sl k).land.quiesce = e.quiesce ∧ (t.sl k).land.branch = e.branch
          ∧ (t.sl k).land.last = e.last))

/-! ### Loads, stores and fingerprints -/

/-- LDH, LDL and LDX deliver the bytes of the store as they stood at the start of the tread, those that a transfer is writing as free
values; an address out of range delivers zeros
marked poisoned and writes a record with cause store range; X[xa] advances when inc is 1. What an LDX leaves in the register that it
both loads and advances is a free value (log entry 12). -/
def Obligations.LoadsReadTheStore : Prop :=
  ∀ (i : Instr) (j : Issued) (s : State) (o n : Nat) (xa : BitVec 4) (inc : Bool),
    let g := Claims.galOf s j
    let s1 := Claims.start s j
    let gi := galIdx j.ph.val j.g.val
    let w := s.who j.ph.val j.g.val
    i.issued = some j → gopOk j.op = true → Claims.ready s j = true → Claims.loadForm g j.op = some (o, n, xa, inc) →
    ∃ (ws : List RegWrite) (v : Nat → Byte) (p : Bool),
      (∀ r c, RegWrite.v r c ∈ ws → c.poison = if p then BitVec.allOnes 64 else 0)
      ∧ (match j.op with
        | .ldh f => ∃ c, ws = .v f.vd c :: Claims.advance g inc xa n ∧ ∀ b < 256, c.bits.extractLsb' (8 * b) 8 = v b
        | .ldl f => ∃ c d, ws = .v f.vd c :: .v (f.vd + 1) d :: Claims.advance g inc xa n
            ∧ (∀ b < 256, c.bits.extractLsb' (8 * b) 8 = v b) ∧ (∀ b < 256, d.bits.extractLsb' (8 * b) 8 = v (256 + b))
        | .ldx f => ∃ c : XCell, ws = Claims.advance g inc xa n ++ [.x (f.vd.truncate 4) c] ∧ c.poison = p
            ∧ ((inc = true → f.vd.truncate 4 ≠ xa) → ∀ b < 8, c.bits.extractLsb' (8 * b) 8 = v b)
        | _ => False)
      ∧ (o < 0x140000 → (∀ b < n, v b = s1.schedByte (storeAddr gi (o + b)))
          ∧ (s1.storePoison gi (o / 512) = true ∨ (g.xr xa.toNat).poison = true → p = true)
          ∧ (s1.upsets = [] →
              p = (s1.storePoison gi (o / 512) || (g.xr xa.toNat).poison) ∧ Machine.exec i s = Claims.results s j 0 ws))
      ∧ (0x140000 ≤ o → (∀ b < n, v b = 0) ∧ p = true
          ∧ Machine.exec i s = Claims.left s j
              ((s1.rangeFault w o).inFlight gi (s1.now + s1.latency j.ph.val j.op) ws))

/-- STH, STL and STX write the bytes of their enabled lanes at the offset that the meaning computes, in the gallery's own store;
every other byte of memory reads as before, and no register changes. -/
def Obligations.StoresWriteTheirBytes : Prop :=
  ∀ (i : Instr) (j : Issued) (s : State) (f : StF) (o n : Nat),
    let g := Claims.galOf s j
    let s1 := Claims.start s j
    let gi := galIdx j.ph.val j.g.val
    i.issued = some j → gopOk j.op = true → Claims.ready s j = true → Claims.storeForm g j.op = some (f, o, n) →
    o < 0x140000 →
    ∃ t, Machine.exec i s = .next t
      ∧ (∀ b < n, t.readByte (storeAddr gi (o + b)) =
          (Claims.storedByte g j.op b).getD (s1.readByte (storeAddr gi (o + b))))
      ∧ (∀ a, a < storeAddr gi o ∨ storeAddr gi (o + n) ≤ a → t.readByte a = s1.readByte a)
      ∧ (∀ gj, Claims.sameRegs (t.gal gj) (s1.gal gj))
      ∧ (t.gal gi).inflight =
          g.inflight ++ [⟨s1.now + s1.latency j.ph.val j.op, Claims.advance g f.inc f.xa n⟩]
      ∧ { t with mem := s1.mem, undef := s1.undef, gals := s1.gals, upsets := s1.upsets, pwr := s1.pwr } = s1
      ∧ { t.pwr with spent := s1.pwr.spent } = s1.pwr

/-- FPI initialises a fingerprint register, FPA feeds it the bytes of n lines, and FPOUT writes the record of 32 bytes to the store
and nothing else; its bytes 0 to 7 are the state XORed with all ones. -/
def Obligations.FingerprintOperations : Prop :=
  ∀ (s : State) (ph : Fin 64) (gn : Fin 16),
    let gi := galIdx ph.val gn.val
    (∀ f : BitVec 2, let j : Issued := ⟨ph, gn, .fpi f, []⟩
      Claims.ready s j = true →
      Machine.exec (.fpi ph gn f) s = Claims.results s j 0 [.f f ⟨0xFFFFFFFFFFFFFFFF#64, true, false, 0⟩])
    ∧ (∀ f : FpaF, let j : Issued := ⟨ph, gn, .fpa f, []⟩
      let s1 := Claims.start s j
      let g := Claims.galOf s j
      let o := storeOff (g.xr f.xa.toNat).bits 512
      let n := f.n1.toNat + 1
      Claims.ready s j = true → s1.upsets = [] → o + 512 * n ≤ 0x140000 →
      ∃ p, Machine.exec (.fpa ph gn f []) s = Claims.results s j 0
        (.f f.f ⟨crcBytes (g.fr f.f.toNat).crc ((List.range (512 * n)).map (fun b => s1.schedByte (storeAddr gi (o + b)))),
          (g.fr f.f.toNat).init, p, BitVec.ofNat 32 (min ((g.fr f.f.toNat).lines.toNat + n) (2 ^ 32 - 1))⟩
          :: Claims.advance g f.inc f.xa (512 * n)))
    ∧ (∀ f : FpoutF, let j : Issued := ⟨ph, gn, .fpout f, []⟩
      let s1 := Claims.start s j
      let g := Claims.galOf s j
      let o := storeOff (g.xr f.xa.toNat).bits 32
      Claims.ready s j = true → o < 0x140000 →
      ∃ t, Machine.exec (.fpout ph gn f) s = .next t
        ∧ (∀ b < 8, t.readByte (storeAddr gi (o + b)) = (~~~(g.fr f.f.toNat).crc).extractLsb' (8 * b) 8)
        ∧ (∀ a, a < storeAddr gi o ∨ storeAddr gi (o + 32) ≤ a → t.readByte a = s1.readByte a)
        ∧ ∀ gj, Claims.sameRegs (t.gal gj) (s1.gal gj))

/-! ### The transport slot -/

/-- AWR puts the line of the store at the end of the outbound alcove buffer, to be present at the budget; ARD takes the oldest present
entry of the neighbour's buffer and writes its line to the store; SWR sends the line toward the mirror hall of a peer die and SRD takes
the oldest line of the stairwell buffer; on an absent path the transport-path-absent fault is raised and nothing is sent. CSEND puts the
line in the receive buffer of every gallery of the mask but the sender and fenced ones. HLD asks the controller in whose
reserved slot it is served for its lines, HST gives it the lines of the store, which travel by stairwell to a stack of another die, and CFETCH
asks it for code. BAYW sends the line toward the arcade of the port that the bay descriptor names; BAYR has the bay's line sent to the
store. None changes a register before its completion. -/
def Obligations.TransportOperationsMoveLines : Prop :=
  ∀ (s : State) (ph : Fin 64) (gn : Fin 16),
    let gi := galIdx ph.val gn.val
    let w := s.who ph.val gn.val
    (∀ f : SideF, let j : Issued := ⟨ph, gn, .awr f, []⟩
      let s1 := Claims.start s j
      let g := Claims.galOf s j
      let o := storeOff (g.xr f.xa.toNat).bits 512
      let k := alcoveKey ph.val f.side.toNat
      gopOk j.op = true → Claims.ready s j = true → s1.upsets = [] → o < 0x140000 →
      (∀ n, alcoveNbr ph.val f.side.toNat = some n → s1.deadHall n = false →
        ∃ t e, Machine.exec (.awr ph gn f []) s = .next t ∧ t.xport.alc k = s1.xport.alc k ++ [e]
          ∧ (∀ q, q ≠ k → t.xport.alc q = s1.xport.alc q)
          ∧ (∀ b < 512, e.line.extractLsb' (8 * b) 8 = s1.schedByte (storeAddr gi (o + b)))
          ∧ e.poison = (s1.storePoison gi (o / 512) || (g.xr f.xa.toNat).poison || s1.suspect gi)
          ∧ e.from_ = s1.now + s1.latency ph.val j.op
          ∧ { t with xport := s1.xport, gals := s1.gals, pwr := s1.pwr } = s1 ∧ ∀ gj, Claims.sameRegs (t.gal gj) (s1.gal gj))
      ∧ (alcoveNbr ph.val f.side.toNat = none → Machine.exec (.awr ph gn f []) s = Claims.left s j
          ((s1.pathAbsent w f.side.toNat false false).inFlight gi (s1.now + s1.latency ph.val j.op)
            (Claims.advance g f.inc f.xa 512))))
    ∧ (∀ (f : SideF) (n : Nat) (e : BufEnt), let j : Issued := ⟨ph, gn, .ard f, []⟩
      let s1 := Claims.start s j
      let g := Claims.galOf s j
      let o := storeOff (g.xr f.xa.toNat).bits 512
      let k := alcoveKey n (oppSide f.side.toNat)
      gopOk j.op = true → Claims.ready s j = true → s1.upsets = [] → o < 0x140000 → alcoveNbr ph.val f.side.toNat = some n →
      oldest (s1.xport.alc k) s1.now = some e →
      ∃ t, Machine.exec (.ard ph gn f []) s = .next t ∧ t.xport.alc k = (s1.xport.alc k).drop 1
        ∧ (∀ q, q ≠ k → t.xport.alc q = s1.xport.alc q)
        ∧ (∀ b < 512, t.readByte (storeAddr gi (o + b)) = e.line.extractLsb' (8 * b) 8)
        ∧ (∀ a, a < storeAddr gi o ∨ storeAddr gi (o + 512) ≤ a → t.readByte a = s1.readByte a)
        ∧ t.storePoison gi (o / 512) = (e.poison || (g.xr f.xa.toNat).poison || s1.suspect gi)
        ∧ ∀ gj, Claims.sameRegs (t.gal gj) (s1.gal gj))
    ∧ (∀ f : SideF, let j : Issued := ⟨ph, gn, .swr f, []⟩
      let s1 := Claims.start s j
      let g := Claims.galOf s j
      let o := storeOff (g.xr f.xa.toNat).bits 512
      let own := dieOfHall ph.val
      gopOk j.op = true → Claims.ready s j = true → s1.upsets = [] → o < 0x140000 →
      (f.side.toNat ≠ own → s1.deadHall (mirror ph.val f.side.toNat) = false →
        ∃ t l, Machine.exec (.swr ph gn f []) s = .next t ∧ t.xport = { s1.xport with waiting := placeLine l s1.xport.waiting }
          ∧ l.src = own ∧ l.dst = f.side.toNat ∧ l.sched = true ∧ l.dest = .hall (mirror ph.val f.side.toNat) own
          ∧ (∀ b < 512, l.line.extractLsb' (8 * b) 8 = s1.schedByte (storeAddr gi (o + b))) ∧ l.at_ = s1.now
          ∧ l.poison = (s1.storePoison gi (o / 512) || (g.xr f.xa.toNat).poison || s1.suspect gi)
          ∧ { t with xport := s1.xport, gals := s1.gals, pwr := s1.pwr } = s1 ∧ ∀ gj, Claims.sameRegs (t.gal gj) (s1.gal gj))
      ∧ (f.side.toNat = own → Machine.exec (.swr ph gn f []) s = Claims.left s j
          ((s1.pathAbsent w own true false).inFlight gi (s1.now + s1.latency ph.val j.op) (Claims.advance g f.inc f.xa 512))))
    ∧ (∀ (f : SideF) (e : BufEnt), let j : Issued := ⟨ph, gn, .srd f, []⟩
      let s1 := Claims.start s j
      let g := Claims.galOf s j
      let o := storeOff (g.xr f.xa.toNat).bits 512
      let k := stairKey ph.val f.side.toNat
      gopOk j.op = true → Claims.ready s j = true → o < 0x140000 → f.side.toNat ≠ dieOfHall ph.val →
      oldest (s1.xport.stw k) s1.now = some e →
      ∃ t, Machine.exec (.srd ph gn f) s = .next t ∧ t.xport.stw k = (s1.xport.stw k).drop 1
        ∧ (∀ q, q ≠ k → t.xport.stw q = s1.xport.stw q)
        ∧ (∀ b < 512, t.readByte (storeAddr gi (o + b)) = e.line.extractLsb' (8 * b) 8)
        ∧ (∀ a, a < storeAddr gi o ∨ storeAddr gi (o + 512) ≤ a → t.readByte a = s1.readByte a)
        ∧ ∀ gj, Claims.sameRegs (t.gal gj) (s1.gal gj))
    ∧ (∀ f : CsendF, let j : Issued := ⟨ph, gn, .csend f, []⟩
      let s1 := Claims.start s j
      let g := Claims.galOf s j
      let o := storeOff (g.xr f.xa.toNat).bits 512
      gopOk j.op = true → Claims.ready s j = true → s1.upsets = [] → o < 0x140000 →
      ∃ t e, Machine.exec (.csend ph gn f []) s = .next t ∧ e.off = o
        ∧ (∀ b < 512, e.line.extractLsb' (8 * b) 8 = s1.schedByte (storeAddr gi (o + b)))
        ∧ (∀ r < 16, (t.gal (galIdx ph.val r)).rx = (s1.gal (galIdx ph.val r)).rx
            ++ (if (g.xr f.xm.toNat).bits.getLsbD r && r != gn.val && (s1.gal (galIdx ph.val r)).cond != .fenced then [e] else []))
        ∧ { t with halls := s1.halls, gals := s1.gals, pwr := s1.pwr } = s1 ∧ ∀ gj, Claims.sameRegs (t.gal gj) (s1.gal gj))
    ∧ (∀ (f : HbmF) (c : Nat), let j : Issued := ⟨ph, gn, .hld f, []⟩
      let s1 := Claims.start s j
      let g := Claims.galOf s j
      let o := storeOff (g.xr f.xs.toNat).bits 512
      let off := hbmOff (g.xr f.xh.toNat).bits
      gopOk j.op = true → Claims.ready s j = true → s1.route w 1 off = some c → o + 512 * (f.n1.toNat + 1) ≤ 0x140000 →
      ∃ t r, Machine.exec (.hld ph gn f) s = .next t
        ∧ (t.mc c).reqs = (s1.mc c).reqs ++ [r]
        ∧ r.kind = .hld ∧ r.gi = gi ∧ r.off = off ∧ r.store = o ∧ r.n = f.n1.toNat + 1 ∧ r.win = f.win.toNat
        ∧ r.vh = (s1.hall ph.val).vh ∧ r.at_ = s1.now
        ∧ (∀ q, q ≠ c → t.mc q = s1.mc q)
        ∧ (t.gal gi).pend = g.pend ++ (List.range (f.n1.toNat + 1)).map (fun i => (o / 512 + i) % 4096)
        ∧ { t with mcs := s1.mcs, gals := s1.gals, pwr := s1.pwr } = s1 ∧ ∀ gj, Claims.sameRegs (t.gal gj) (s1.gal gj))
    ∧ (∀ f : BayF, let j : Issued := ⟨ph, gn, .bayw f, []⟩
      let s1 := Claims.start s j
      let g := Claims.galOf s j
      let o := storeOff (g.xr f.xa.toNat).bits 512
      let d := bayDesc (g.xr f.xb.toNat).bits
      gopOk j.op = true → Claims.ready s j = true → s1.upsets = [] → o < 0x140000 → s1.badBay d = false →
      ∃ t l, Machine.exec (.bayw ph gn f []) s = .next t ∧ t.xport = { s1.xport with waiting := placeLine l s1.xport.waiting }
        ∧ l.src = dieOfHall ph.val ∧ l.dst = 4 + d.1 / 6 ∧ l.sched = true
        ∧ (∃ ba, l.dest = .bayw gi ba d.1 d.2.1 d.2.2)
        ∧ (∀ b < 512, l.line.extractLsb' (8 * b) 8 = s1.schedByte (storeAddr gi (o + b))) ∧ l.at_ = s1.now
        ∧ { t with xport := s1.xport, gals := s1.gals, pwr := s1.pwr } = s1 ∧ ∀ gj, Claims.sameRegs (t.gal gj) (s1.gal gj))
    ∧ (∀ (f : HbmF) (c : Nat), let j : Issued := ⟨ph, gn, .hst f, []⟩
      let s1 := Claims.start s j
      let g := Claims.galOf s j
      let o := storeOff (g.xr f.xs.toNat).bits 512
      let off := hbmOff (g.xr f.xh.toNat).bits
      let far := decide (dieOfStack c ≠ dieOfHall ph.val)
      gopOk j.op = true → Claims.ready s j = true → s1.upsets = [] → s1.route w 2 off = some c →
      o + 512 * (f.n1.toNat + 1) ≤ 0x140000 →
      ∃ t r, Machine.exec (.hst ph gn f []) s = .next t
        ∧ (t.mc c).reqs = (s1.mc c).reqs ++ [r]
        ∧ r.kind = .hst ∧ r.gi = gi ∧ r.off = off ∧ r.store = o ∧ r.n = f.n1.toNat + 1 ∧ r.win = f.win.toNat
        ∧ r.missing = (if far then f.n1.toNat + 1 else 0)
        ∧ (∀ q, q ≠ c → t.mc q = s1.mc q)
        ∧ (∀ n ≤ f.n1.toNat, ∃ l p, r.lines[n]? = some (l, p)
          ∧ ∀ b < 512, l.extractLsb' (8 * b) 8 = s1.schedByte (storeAddr gi (o + 512 * n + b)))
        ∧ t.xport = { s1.xport with waiting := t.xport.waiting }
        ∧ t.xport.waiting.length = s1.xport.waiting.length + r.missing ∧ (∀ l ∈ s1.xport.waiting, l ∈ t.xport.waiting)
        ∧ { t with mcs := s1.mcs, gals := s1.gals, pwr := s1.pwr, xport := s1.xport } = s1
        ∧ ∀ gj, Claims.sameRegs (t.gal gj) (s1.gal gj))
    ∧ (∀ (f : CfetchF) (c : Nat), let j : Issued := ⟨ph, gn, .cfetch f, []⟩
      let s1 := Claims.start s j
      let g := Claims.galOf s j
      let off := hbmOff (g.xr f.xh.toNat).bits
      gopOk j.op = true → Claims.ready s j = true → s1.route w 1 off = some c →
      ∃ t r, Machine.exec (.cfetch ph gn f) s = .next t
        ∧ (t.mc c).reqs = (s1.mc c).reqs ++ [r]
        ∧ r.kind = .cfetch ∧ r.gi = gi ∧ r.off = off ∧ r.store = g.fetched ∧ r.n = f.n1.toNat + 1
        ∧ (∀ q, q ≠ c → t.mc q = s1.mc q)
        ∧ (t.gal gi).fetched = g.fetched + 16 * (f.n1.toNat + 1)
        ∧ { t with mcs := s1.mcs, gals := s1.gals, pwr := s1.pwr } = s1 ∧ ∀ gj, Claims.sameRegs (t.gal gj) (s1.gal gj))
    ∧ (∀ f : BayF, let j : Issued := ⟨ph, gn, .bayr f, []⟩
      let s1 := Claims.start s j
      let g := Claims.galOf s j
      let o := storeOff (g.xr f.xa.toNat).bits 512
      let d := bayDesc (g.xr f.xb.toNat).bits
      gopOk j.op = true → Claims.ready s j = true → o < 0x140000 → s1.badBay d = false →
      ∃ t l, Machine.exec (.bayr ph gn f) s = .next t ∧ t.xport = { s1.xport with waiting := placeLine l s1.xport.waiting }
        ∧ l.src = 4 + d.1 / 6 ∧ l.dst = dieOfHall ph.val ∧ l.sched = true ∧ l.dest = .store gi o (d.2.2 = 16)
        ∧ l.line = (s1.bay (d.1 * 128 + d.2.1)).line d.2.2 ∧ (t.gal gi).pend = g.pend ++ [o / 512]
        ∧ { t with xport := s1.xport, gals := s1.gals, pwr := s1.pwr } = s1 ∧ ∀ gj, Claims.sameRegs (t.gal gj) (s1.gal gj))

/-! ### The matrix slot -/

/-- In exact mode the word of an accumulator, with every flag, does not depend on the order of the products added to it, and
neither do the arithmetic flags. -/
def Obligations.ExactAccumulationIsOrderFree : Prop :=
  ∀ (ea : BitVec 16) (a : AccWord) (ps qs : List (FVal × FVal)), List.Perm ps qs →
    accRow .exact ea.toInt a ps = accRow .exact ea.toInt a qs

/-- MCLR will leave its bank with every accumulator 0, the named alignment exponent, and the mode that the operation names, or the
forerunner mode that HAL_MODE.mborad_acc selects; a swap of MMA exchanges the two tiles at once; MRD with clr set clears the words;
MSPILL leaves the registers and banks as they are and writes the bank's image; MFILL will leave the image in the bank; MLDT will load
the shadow tile, transposed when tr is set, with its scales. -/
def Obligations.MatrixOperations : Prop :=
  ∀ (s : State) (ph : Fin 64) (gn : Fin 16),
    let gi := galIdx ph.val gn.val
    (∀ f : MclrF, let j : Issued := ⟨ph, gn, .mclr f, []⟩
      let fore := ((Claims.start s j).hall ph.val).reg.mode.getLsbD 0
      Claims.ready s j = true →
      Machine.exec (.mclr ph gn f) s = Claims.results s j 0
        [.bank f.bank ⟨if fore then (if f.mode then .fint else .ffloat) else (if f.mode then .xf else .exact), f.ea, []⟩])
    ∧ (∀ f : MmaF, let j : Issued := ⟨ph, gn, .mma f, []⟩
      let g := Claims.galOf s j
      gopOk j.op = true → Claims.ready s j = true → (Claims.start s j).upsets = [] → f.rv = true →
      ∃ t b, Machine.exec (.mma ph gn f []) s = .next t
        ∧ (t.gal gi).active = (if f.swap then g.shadow else g.active)
        ∧ (t.gal gi).shadow = (if f.swap then g.active else g.shadow)
        ∧ (t.gal gi).inflight = g.inflight
            ++ [⟨(Claims.start s j).now + (Claims.start s j).latency ph.val j.op, [.bank f.bank b]⟩]
        ∧ b.mode = (g.bank f.bank.toNat).mode ∧ b.ea = (g.bank f.bank.toNat).ea
        ∧ (t.hall ph.val).cnt.mmaRows.toNat =
            min (((Claims.start s j).hall ph.val).cnt.mmaRows.toNat + f.n1.toNat + 1) (2 ^ 64 - 1)
        ∧ t.mem = (Claims.start s j).mem ∧ t.undef = (Claims.start s j).undef)
    ∧ (∀ f : MrdF, let j : Issued := ⟨ph, gn, .mrd f, []⟩
      let g := Claims.galOf s j
      gopOk j.op = true → Claims.ready s j = true → (Claims.start s j).upsets = [] →
      ∃ (c : VCell) (fl : BitVec 8), Machine.exec (.mrd ph gn f []) s = Claims.results s j fl
        ([.v f.vd c] ++ (if f.clr then [.bank f.bank ⟨(g.bank f.bank.toNat).mode, (g.bank f.bank.toNat).ea, []⟩] else [])
          ++ Claims.advance g f.adv (BitVec.ofNat 4 (2 * f.xk.toNat + 1)) 64))
    ∧ (∀ f : MspillF, let j : Issued := ⟨ph, gn, .mspill f, []⟩
      let g := Claims.galOf s j
      let o := storeOff (g.xr f.xa.toNat).bits 512
      Claims.ready s j = true → (Claims.start s j).upsets = [] → o + 1536 ≤ 0x140000 →
      ∃ t, Machine.exec (.mspill ph gn f []) s = .next t
        ∧ (∀ a < 64, ∀ b < 24, t.readByte (storeAddr gi (o + 24 * a + b)) =
            ((g.bank f.bank.toNat).word a).extractLsb' (8 * b) 8)
        ∧ (∀ a, a < storeAddr gi o ∨ storeAddr gi (o + 1536) ≤ a → t.readByte a = (Claims.start s j).readByte a)
        ∧ ∀ gj, Claims.sameRegs (t.gal gj) ((Claims.start s j).gal gj))
    ∧ (∀ f : MldtF, let j : Issued := ⟨ph, gn, .mldt f, []⟩
      let s1 := Claims.start s j
      let g := Claims.galOf s j
      let m := (Fmt.ofCode f.fmt).getD .e4m3
      let o := storeOff (g.xr f.xt.toNat).bits 512
      let os := storeOff (g.xr f.xs.toNat).bits 256
      gopOk j.op = true → Claims.ready s j = true → s1.upsets = [] → o + tileBytes m ≤ 0x140000 →
      (f.scaled = true → os + 64 * blocks m ≤ 0x140000) →
      ∃ tl : Tile, Machine.exec (.mldt ph gn f []) s = Claims.results s j 0
          ([.shadow tl] ++ Claims.advance g f.inc f.xt (tileBytes m))
        ∧ tl.fmt = f.fmt ∧ tl.loaded = true ∧ tl.scaled = f.scaled
        ∧ (m.width = 8 → ∀ r < 64, ∀ c < 64, (SMap.get 0 tl.elems (64 * r + c)).toNat =
            (s1.schedByte (storeAddr gi (o + if f.tr then 64 * c + r else 64 * r + c))).toNat)
        ∧ (f.scaled = true → m.width ≤ 8 → ∀ i < 64 * blocks m,
            SMap.get 0 tl.scales i = s1.schedByte (storeAddr gi (os + i)) - 127))
    ∧ (∀ f : MfillF, let j : Issued := ⟨ph, gn, .mfill f, []⟩
      let s1 := Claims.start s j
      let g := Claims.galOf s j
      let o := storeOff (g.xr f.xa.toNat).bits 512
      let fore := (s1.hall ph.val).reg.mode.getLsbD 0
      Claims.ready s j = true → s1.upsets = [] → o + 1536 ≤ 0x140000 →
      ∃ b : Bank, Machine.exec (.mfill ph gn f []) s = Claims.results s j 0
          ([.bank f.bank b] ++ Claims.advance g f.inc f.xa 1536)
        ∧ b.mode = (if fore then (if f.mode then .fint else .ffloat) else (if f.mode then .xf else .exact)) ∧ b.ea = f.ea
        ∧ (b.mode = .exact → (g.xr f.xa.toNat).poison = false → (∀ k < 3, s1.storePoison gi (o / 512 + k) = false) →
          ∀ a < 64, ∀ i < 24, (b.word a).extractLsb' (8 * i) 8 = s1.schedByte (storeAddr gi (o + 24 * a + i))))

/-! ### Issue groups and stairs -/

/-- ISSUE_GROUP carries out the bundles of the galleries of a running hall, where the loader lets them stand (log entry 96), at the scheduled tread, or as soon after it as the
last issue allows: the scheduled tread advances by the delta of the header, the lag is what TREAD has passed the schedule by, and a
bundle that closes and opens no loop is followed by the next one. -/
def Obligations.IssueGroupIssues : Prop :=
  ∀ (s : State) (ph : Fin 64) (B : Nat → Bun),
    let i := (s.hall ph.val).iss
    let sched := i.sched + BitVec.ofNat 64 (B 0).delta
    let at_ := max (s.rawOf (s.hallSlice ph.val) sched) (i.last + 1)
    let s2 := s.waitUntil at_
    let gr := (List.range 16).map (fun g => (g, B g))
    (s.hall ph.val).st = .running → i.stopped = false → i.noCopy = false → s.upsets = [] →
    (∀ g < 16, (s.gal (galIdx ph.val g)).cond ≠ .fenced ∧ (s.gal (galIdx ph.val g)).hasBundle i.slot i.pc = true
      ∧ (SMap.get {} (s.gal (galIdx ph.val g)).istore (istorePos i.slot i.pc)).bad = false
      ∧ decodeBundle (SMap.get {} (s.gal (galIdx ph.val g)).istore (istorePos i.slot i.pc)).bits = some (B g)) →
    s.clk.running = true → at_ < 2 ^ 64 → s2.groupFits ph.val gr = true →
    s2.ownUnmet ph.val gr = false → s2.waitUnmet ph.val gr = false → s2.limited ph.val gr = false →
    ∃ t, Machine.exec (.issueGroup ph []) s = .next t
      ∧ t = s2.issueGroup ph.val sched (s2.now - s.rawOf (s.hallSlice ph.val) sched) gr [] (B 0)
      ∧ (t.hall ph.val).iss.sched = sched ∧ (t.hall ph.val).iss.last = s2.now
      ∧ (t.hall ph.val).iss.lag = s2.now - s.rawOf (s.hallSlice ph.val) sched
      ∧ ((B 0).lend = 0 → (t.hall ph.val).iss.pc = i.pc + 1)

/-- TOKEN_DELIVERY holds the token in the token queue of 256 and counts it, a token of the as-A0 mode no earlier than it is due; a stale token and
one that finds the queue full write a record, and a branch value is kept for its ordinal unless one is kept already.
HEAD_FETCH asks for the head of the lowest launch candidate that the hall does not hold, in a free slot where there is one;
HEAD_FETCH_COMPLETE, when the last line of the head finds an unreserved slot and its places, makes the head present and puts its bundles,
as HBM holds them, in the head area of every gallery of the hall that is not fenced. -/
def Obligations.TokensAndHeads : Prop :=
  (∀ (s : State) (n : Nat) (t : Token), s.stair.transit[n]? = some t →
    let s0 := if t.floor then s.waitUntil t.due else s
    let s1 : State := { s0 with stair := { s.stair with transit := s.stair.transit.eraseIdx n } }
    let k := s.tokSlice t
    (t.branch = false → s.ordFinal k t.ord = true → Machine.exec (.tokenDelivery n) s = .next (s1.raise
        { cause := 0x0108, slice := some k, errs := [k], cls := 1, flight := BitVec.ofNat 16 t.flight
          detail := t.ord ++ BitVec.ofNat 32 t.flight }))
    ∧ (t.branch = false → s.ordFinal k t.ord = false → 256 ≤ s.stair.queue.length →
        Machine.exec (.tokenDelivery n) s = .next (s1.raise
          { cause := 0x0109, slice := some k, errs := [k], cls := 1, flight := BitVec.ofNat 16 t.flight
            detail := t.ord ++ BitVec.ofNat 32 (4 * t.flight) }))
    ∧ (t.branch = false → s.ordFinal k t.ord = false → s.stair.queue.length < 256 →
        ∃ u, Machine.exec (.tokenDelivery n) s = .next u ∧ u.stair = ⟨s.stair.transit.eraseIdx n, s.stair.queue ++ [t]⟩
          ∧ (∀ ph < 64, (s.hall ph).st ≠ .absent →
              (u.hall ph).cnt.tokens.toNat = min ((s.hall ph).cnt.tokens.toNat + 1) (2 ^ 32 - 1)
              ∧ (u.hall ph).cnt.tokqMax.toNat = max (s.hall ph).cnt.tokqMax.toNat (s.stair.queue.length + 1))
          ∧ { u with stair := s.stair, halls := s.halls } = s0)
    ∧ (t.branch = true → s.ordFinal k t.ord = false → (∀ b ∈ (s.sl k).bvals, b.1 ≠ t.ord) →
        Machine.exec (.tokenDelivery n) s =
          .next (s1.updSl k (fun x => { x with bvals := x.bvals ++ [(t.ord, t.value)] }))))
  ∧ (∀ (s : State) (ph : Fin 64),
    (∀ f : Nat, ((s.hall ph.val).st = .idle ∨ (s.hall ph.val).st = .running) → (s.hall ph.val).heads = [] →
      (s.candidatesOn ph.val).head? = some f →
      Machine.exec (.headFetch ph) s =
        .next (s.updHall ph.val (fun h => { h with heads := [⟨some f, false, false⟩, {}, {}, {}] })))
    ∧ (∀ f i : Nat, ((s.hall ph.val).st = .idle ∨ (s.hall ph.val).st = .running) →
      (s.candidatesOn ph.val).find? (fun f => ((s.hall ph.val).slotOf f).isNone) = some f → (s.hall ph.val).pickSlot f = some i →
      ∃ t, Machine.exec (.headFetch ph) s = .next t ∧ { t with halls := s.halls } = s ∧ (∀ q, q ≠ ph.val → t.hall q = s.hall q)
        ∧ (t.hall ph.val).heads =
            ((s.hall ph.val).heads ++ List.replicate (4 - (s.hall ph.val).heads.length) (⟨none, false, false⟩ : HeadSlot)).set i
              ⟨some f, false, false⟩)
    ∧ (∀ (n : Fin 4) (f : Nat) (x : Flight) (sh : Share) (s0 : State),
      ((s.hall ph.val).heads.getD n.val {}).flight = some f → ((s.hall ph.val).heads.getD n.val {}).present = false →
      s.flight f = some x → s.shareOn ph.val x = some sh →
      s.unschedRead (headEnd sh ((List.range 16).filter (fun g => (s.gal (galIdx ph.val g)).cond != .fenced))) (dieOfHall ph.val) =
        some s0 →
      ∃ t, Machine.exec (.headFetchComplete ph n) s = .next t
        ∧ (t.hall ph.val).heads = (s.hall ph.val).heads.set n.val ⟨some f, true, false⟩
        ∧ (∀ g < 16, ∀ b < min 256 (sh.streams.getD g []).length, (s.gal (galIdx ph.val g)).cond ≠ .fenced →
            SMap.get {} (t.gal (galIdx ph.val g)).istore (1024 + 256 * n.val + b) =
              ⟨b, BitVec.ofNat 256 (leNat (s.readBytes (sh.code.getD g 0 + 32 * b) 32)), true, false, 0⟩)
        ∧ { t with halls := s.halls, gals := s.gals, upsets := s.upsets, xport := s.xport } = s))

/-- STAIRWELL_FRAME starts the next frame when its tread has come, at an even slice tread: the lines that wait take their places,
scheduled ones first, and arrive two treads later; a line that waits alone takes a place.
STAIRWELL_LINE_ARRIVAL with a correct CRC brings the line to its destination when it is due; a
wrong one sends it again eight treads later and counts, and the fourth wrong one in a row marks the stairwell failed, writes a record
and delivers zeros marked poisoned, as every line of a failed stairwell is delivered.
STORE_SCRUB_READ reads and checks one line of the stores, when port T is free, and moves on to the next of the 2,560; a corrected error found
there is counted and is gone. CORRECTED_ERROR_STORM, when the corrected errors of the window pass the limit, makes the gallery suspect and
writes one record for the window. -/
def Obligations.StairwellsScrubbingAndStorms : Prop :=
  (∀ s : State,
    (Claims.comes s s.xport.next →
      let s0 := s.waitUntil s.xport.next
      let s1 := s0.passTreads (if s0.clk.running then (s0.now + s0.evenTread) % 2 else 0)
      let r := stwPlace (s1.xport.usedIn s1.now)
        (s.xport.waiting.filter (fun l => l.sched) ++ s.xport.waiting.filter (fun l => !l.sched))
      ∃ t, Machine.exec .stairwellFrame s = .next t ∧ t.clk = s1.clk ∧ t.xport.next = s1.now + 2 ∧ t.xport.waiting = r.2.1
        ∧ ((∀ l ∈ r.1, l.relay = none) →
          t.xport.flying = s.xport.flying ++ r.1.map (fun l => { l with due := s1.now + 2 })
            ∧ { t with clk := s.clk, xport := s.xport } = s)
        ∧ (∀ l, s.xport.waiting = [l] → l.relay = none → s.xport.usedAt ≠ s1.now →
          t.xport.waiting = [] ∧ t.xport.flying = s.xport.flying ++ [{ l with due := s1.now + 2 }]))
    ∧ (∀ (k : Nat) (l : StwLine), s.xport.flying[k]? = some l →
      let s0 := s.waitUntil (max l.due l.floor)
      let gone : State := { s0 with xport := s0.xport.leave l k s0.now }
      (s.xport.failed.contains (stwKey l.src l.dst) = true → ∀ ok, Machine.exec (.stairwellLineArrival k ok) s =
        .next (gone.landLine { l with line := 0, poison := true }))
      ∧ (s.xport.failed.contains (stwKey l.src l.dst) = false →
        Machine.exec (.stairwellLineArrival k true) s = .next (gone.landLine l)
        ∧ (∀ ph die : Nat, l.dest = .hall ph die → s.deadHall ph = false →
          ∃ t, Machine.exec (.stairwellLineArrival k true) s = .next t ∧ t.xport.flying = s.xport.flying.eraseIdx k
            ∧ t.xport.stw (stairKey ph die) = s.xport.stw (stairKey ph die) ++ [⟨l.line, l.poison, max s0.now l.floor⟩]
            ∧ { t with xport := s.xport } = s0)
        ∧ (l.fails < 3 → Machine.exec (.stairwellLineArrival k false) s = .next { s0 with
            sec := { s0.sec with stwResend := satInc s0.sec.stwResend }
            xport := { s0.xport with flying := s0.xport.flying.set k { l with fails := l.fails + 1, due := s0.now + 8 } } })
        ∧ (3 ≤ l.fails → ∃ t, Machine.exec (.stairwellLineArrival k false) s = .next t
            ∧ stwKey l.src l.dst ∈ t.xport.failed ∧ t.sec.stwResend = s.sec.stwResend))))
  ∧ (∀ (s : State) (ph : Fin 64),
    let line := (s.hall ph.val).iss.scrubPtr % 2560
    (s.hall ph.val).reg.scrubEn = true → ((s.hall ph.val).st = .running ∨ (s.hall ph.val).st = .idle) →
    Claims.comes s (s.scrubTime ph.val) →
    (∀ ups : List Upset, ∃ t, Machine.exec (.storeScrubRead ph ups) s = .next t ∧ s.scrubTime ph.val ≤ t.now
      ∧ (t.hall ph.val).iss.scrubPtr = (line + 1) % 2560)
    ∧ (s.upsets = [] → ∃ t, Machine.exec (.storeScrubRead ph []) s = .next t ∧ { t with clk := s.clk, halls := s.halls } = s
      ∧ (∀ q, q ≠ ph.val → t.hall q = s.hall q)
      ∧ { t.hall ph.val with iss := (s.hall ph.val).iss } = s.hall ph.val)
    ∧ (∀ (g : Fin 16) (word : Nat) (die : Bool), s.upsets = [] → (s.gal (galIdx ph.val g.val)).cond ≠ .fenced →
      ∃ t, Machine.exec (.storeScrubRead ph [⟨.store (galIdx ph.val g.val) line word, true, die⟩]) s = .next t ∧ t.upsets = []
        ∧ (t.gal (galIdx ph.val g.val)).ce = satInc (s.gal (galIdx ph.val g.val)).ce
        ∧ (t.gal (galIdx ph.val g.val)).cond = (s.gal (galIdx ph.val g.val)).cond ∧ t.mem = s.mem ∧ t.flt = s.flt))
  ∧ (∀ (s : State) (ph : Fin 64) (g : Fin 16),
    let gi := galIdx ph.val g.val
    let n := fun k => SMap.get 0 (s.gal gi).stormCe k
    (s.gal gi).stormWin = s.now / 2 ^ 20 → (s.gal gi).stormDone = false → s.flt.storm.toNat < n 0 + n 1 + n 2 →
    (∃ t, Machine.exec (.correctedErrorStorm ph g) s = .next t ∧ (t.gal gi).stormDone = true
      ∧ (t.gal gi).cond = (if (s.gal gi).cond = .fenced then .fenced else .suspect)
      ∧ (∀ gj, gj ≠ gi → t.gal gj = s.gal gj) ∧ t.clk = s.clk)
    ∧ (n 1 = 0 → n 2 = 0 → (s.gal gi).cond = .healthy → (s.hall ph.val).st = .running → (s.hall ph.val).mapped = none →
      Machine.exec (.correctedErrorStorm ph g) s =
        .next ((s.updGal gi (fun x => { x with stormDone := true, cond := .suspect })).raise
          { cause := 0x0201, src := some ph.val, ph := BitVec.ofNat 8 ph.val, g := BitVec.ofNat 8 g.val, susp := true
            detail := BitVec.ofNat 64 (min (n 0) 65535) })))

/-! ### Landings -/

namespace Sys2Proof.Claims
open Sys2Proof.Machine

/-- TREAD of the end and of the report tread of the present landing of slice `k`; the end moves by the alignment error (02 R35). -/
def endTread (s : State) (k : Nat) : Nat :=
  ((s.rawOf k ((s.sl k).land.a + BitVec.ofNat 64 (s.sl k).land.w) : Int) + (s.sl k).land.err).toNat
def reportTread (s : State) (k : Nat) : Nat := s.rawOf k ((s.sl k).land.a + BitVec.ofNat 64 (s.sl k).land.d)

end Sys2Proof.Claims

/-- IDLE_LANDING_START opens the idle landing of a slice at the end of its gap, the first at slice tread 0, with the width and the
report tread of TIM_IDLE_W; its ordinal is 0, or one more than the last.
LANDING_REPORT acts at the report tread D of an open landing and not before: the part has then reported. PART_READY lets a part
that was not ready at D become ready when nothing but time was missing and the time has passed.
LANDING_END leaves a landing at its end tread, moved by the alignment error, when the part is ready and nothing holds it: the next landing
may begin from E, the alignment correction moves the epoch, the telemetry names the ordinal. A landing that is held stands at E, and a
member that is ready there sends its hold report toward the master. -/
def Obligations.LandingsStartReportAndEnd : Prop :=
  (∀ (s : State) (slice : BitVec 8),
    let k := slice.toNat
    let x := s.sl k
    let a : Word64 := if x.started then x.nextA + (SMap.get 0x4000#17 s.tim.idleGap k).zeroExtend 64 else 0
    let w := SMap.get 0x00FF0080#32 s.tim.idleW k
    x.admitted = true → x.epochSet = true → x.phase = .idle → Claims.comes s (s.rawOf k a) →
    ∃ t, Machine.exec (.idleLandingStart slice) s = .next t ∧ s.rawOf k a ≤ t.now
      ∧ (t.sl k).phase = .landing ∧ (t.sl k).started = true ∧ (t.sl k).land.idle = true ∧ (t.sl k).land.a = a
      ∧ (t.sl k).land.ord = (if x.started then x.land.ord + 1 else x.land.ord)
      ∧ (t.sl k).land.w = 4 * ((w.extractLsb' 16 11).toNat + 1) ∧ (t.sl k).land.d = 4 * (w.extractLsb' 0 12).toNat
      ∧ (t.sl k).land.reported = false ∧ (t.sl k).epoch = x.epoch ∧ (t.sl k).offset = x.offset)
  ∧ (∀ (s : State) (slice : BitVec 8),
    let k := slice.toNat
    ((s.sl k).phase = .landing → (s.sl k).land.reported = false → Claims.comes s (Claims.reportTread s k) →
      ∃ t, Machine.exec (.landingReport slice) s = .next t
        ∧ t = (s.waitUntil (Claims.reportTread s k)).reportNow k ∧ Claims.reportTread s k ≤ t.now
        ∧ (t.sl k).land.reported = true)
    ∧ (∀ j : Judged, ((s.sl k).phase = .landing ∨ (s.sl k).phase = .held) → (s.sl k).land.reported = true →
      (s.sl k).land.ready = false → (s.countTokens k).judge k (s.sl k).land.d = j → j.block = none →
      Claims.comes s (s.rawOf k ((s.sl k).land.a + BitVec.ofNat 64 j.need)) →
      let s1 := (s.countTokens k).waitUntil (s.rawOf k ((s.sl k).land.a + BitVec.ofNat 64 j.need))
      ∃ t, Machine.exec (.partReady slice) s = .next t ∧ t = (s1.setReady k j s1.now).sendHold k
        ∧ (t.sl k).land.ready = true ∧ (t.sl k).land.launch = j.launch))
  ∧ (∀ (s : State) (slice : BitVec 8),
    let k := slice.toNat
    let l := (s.sl k).land
    (s.sl k).phase = .landing → l.reported = true → l.commit = false → l.quiesce = false →
    (s.sl k).err.outcome = none → Claims.comes s (Claims.endTread s k) →
    (l.holdPend = false → l.ready = true →
      ∃ t, Machine.exec (.landingEnd slice) s = .next t
        ∧ t = (s.waitUntil (Claims.endTread s k)).leaveLanding k 0 ∧ Claims.endTread s k ≤ t.now
        ∧ (t.sl k).nextA = l.a + BitVec.ofNat 64 l.w ∧ (t.sl k).epoch = (s.sl k).epoch + BitVec.ofInt 64 l.err
        ∧ (t.sl k).tel.lastOrd = l.ord ∧ (t.sl k).tel.anyEnded = true
        ∧ ((t.sl k).phase = .idle ∨ (t.sl k).phase = .running))
    ∧ (l.holdPend = true → l.released = false →
      let s1 := s.waitUntil (Claims.endTread s k)
      (l.ready = false → Machine.exec (.landingEnd slice) s =
        .next (s1.updSl k (fun x => { x with phase := .held, land := { x.land with since := s1.now } })))
      ∧ (l.ready = true → l.sent = false → s.isMaster k = false →
        ∃ t r, Machine.exec (.landingEnd slice) s = .next t ∧ (t.sl k).phase = .held ∧ (t.sl k).land.sent = true
          ∧ (t.sl k).land.since = s1.now ∧ t.relays = s.relays ++ [.hold k r] ∧ r.chip = s.cfg.chip ∧ r.ordinal = l.holdOrd
          ∧ r.e = l.a + BitVec.ofNat 64 l.w ∧ { t with relays := s.relays, slices := s.slices } = s1)))

/-- The hold length is the least multiple of 256 at or above t_send − min E + reach + 256.
A member passes a hold report on toward the master; the master keeps one of each member. A release is relayed, and a part that it
concerns, and that it reaches before its resume tread, adds H to the slice's offset and is released. -/
def Obligations.HoldReportsAndReleases : Prop :=
  (∀ (t e : Int) (reach : Nat), 0 ≤ t - e + reach + 256 →
    holdLength t e reach % 256 = 0 ∧ t - e + reach + 256 ≤ holdLength t e reach
      ∧ (holdLength t e reach : Int) < t - e + reach + 512)
  ∧ (∀ (s : State) (slice : BitVec 8), (s.sl slice.toNat).admitted = true →
    let k := slice.toNat
    (∀ r : HoldReport, let s1 := s.takeIn (isCtl k 2 (holdBytes r))
      (s.isMaster k = false →
        Machine.exec (.holdReportReceipt slice r) s = .next { s1 with relays := s1.relays ++ [.hold k r] })
      ∧ (s.isMaster k = true → (s.sl k).reports.length + 1 < 2 ^ (s.sl k).id.k →
          (∀ y ∈ (s.sl k).reports, y.chip ≠ r.chip) →
          Machine.exec (.holdReportReceipt slice r) s =
            .next (s1.updSl k (fun x => { x with reports := x.reports ++ [r] }))))
    ∧ (∀ r : Release, let s1 := s.takeIn (isCtl k 3 (releaseBytes r))
      (s.sl k).phase = .held → (s.sl k).land.holdPend = true → (s.sl k).land.released = false →
      (s.sl k).land.holdOrd = r.ordinal →
      (r.abort = false ∨ (s.sl k).land.commit = false ∨ (s.sl k).land.holdOrd = (s.sl k).land.ord) →
      s.now ≤ ((((s.sl k).epoch + ((s.sl k).offset + r.h.zeroExtend 64)
        + ((s.sl k).land.a + BitVec.ofNat 64 (s.sl k).land.w)).toNat : Int) + (s.sl k).land.err).toNat →
      ∃ t, Machine.exec (.releaseReceipt slice r) s = .next t ∧ t.relays = s1.relays ++ [.release k r]
        ∧ (t.sl k).offset = (s.sl k).offset + r.h.zeroExtend 64 ∧ (t.sl k).land.released = true
        ∧ (t.sl k).land.holdLen = (s.sl k).land.holdLen + r.h ∧ (t.sl k).phase = .held ∧ (t.sl k).epoch = (s.sl k).epoch
        ∧ { t with relays := s1.relays, slices := s1.slices } = s1))

/-- A member passes a commit report on; the master keeps them until it holds one of every member. A part at a commit landing takes the
outcome of its ordinal: it is relayed, a commit adds 1 to the state epoch, an abort leaves it.
A part that waits 16,777,216 treads in a hold for a release, or from E for an outcome, gives the slice up, with a record of a hold timeout
and the notice of a failed slice. -/
def Obligations.CommitsAndTimeouts : Prop :=
  (∀ (s : State) (slice : BitVec 8), (s.sl slice.toNat).admitted = true →
    let k := slice.toNat
    (∀ r : CommitReport, let s1 := s.takeIn (isCtl k 4 (reportBytes r))
      (s.isMaster k = false →
        Machine.exec (.commitReportReceipt slice r) s = .next { s1 with relays := s1.relays ++ [.report k r] })
      ∧ (s.isMaster k = true → (s.sl k).err.reports.length + 1 < 2 ^ (s.sl k).id.k →
          (∀ y ∈ (s.sl k).err.reports, y.chip ≠ r.chip) →
          Machine.exec (.commitReportReceipt slice r) s =
            .next (s1.updSl k (fun x => { x with err := { x.err with reports := x.err.reports ++ [r] } }))))
    ∧ (∀ o : CommitOutcome, let s1 := s.takeIn (isCtl k 5 (outcomeBytes o))
      (s.sl k).phase = .landing → (s.sl k).land.commit = true → (s.sl k).land.ord = o.ordinal →
      (s.sl k).err.outcome = none → s.now ≤ Claims.endTread s k →
      ∃ t, Machine.exec (.commitOutcomeReceipt slice o) s = .next t ∧ t.relays = s1.relays ++ [.outcome k o]
        ∧ (t.sl k).err.outcome = some o
        ∧ (t.sl k).err.epoch = (if o.abort then (s.sl k).err.epoch else (s.sl k).err.epoch + 1)
        ∧ (t.sl k).err.commits = (s.sl k).err.commits ++ [(o.ordinal, o.abort)]
        ∧ t.flt.commits = (if o.abort then s.flt.commits else satInc s.flt.commits)
        ∧ t.flt.aborts = (if o.abort then satInc s.flt.aborts else s.flt.aborts)
        ∧ (t.sl k).phase = .landing))
  ∧ (∀ (s : State) (slice : BitVec 8),
    let k := slice.toNat
    let t0 := Claims.endTread s k + 16777216
    let s1 := s.waitUntil t0
    let t2 := (s.sl k).land.since + 16777216
    ((s.sl k).phase = .held → (s.sl k).land.released = false → Claims.comes s t2 →
      Machine.exec (.holdTimeout slice) s = .next (((s.waitUntil t2).updSl k (fun x => { x with phase := .failed })).raiseNotice
        { cause := 0x010D, slice := some k, errs := [k], cls := 1, detail := BitVec.ofNat 64 k } 0x04
          (BitVec.ofNat 64 k) [k]))
    ∧ (((s.sl k).phase = .landing ∨ (s.sl k).phase = .held) → (s.sl k).land.reported = true →
      ((s.sl k).land.commit = true ∨ (s.sl k).land.quiesce = true) → (s.sl k).err.outcome = none → Claims.comes s t0 →
      Machine.exec (.commitOutcomeTimeout slice) s =
        .next ((s1.updSl k (fun x => { x with phase := .failed })).raiseNotice
          { cause := 0x010D, slice := some k, errs := [k], cls := 1, detail := BitVec.ofNat 64 k } 0x04
            (BitVec.ofNat 64 k) [k])))

/-! ### Recovery -/

/-- A test walk that passes is followed by a scrub of 2,560 treads, counted, and recorded with cause 0x020E; one in which a phase failed is recorded
with cause 0x020F and the phase, and the gallery waits for its fence.
GALLERY_SCRUB_COMPLETE, at the end of the scrub, leaves the store zero and every poison bit of its lines clear, the gallery rejoining with the stamp of its
hall's slice; the first unit that waits, where its stamp is the state epoch and its item fits, is admitted at a landing of the slice before D,
a gallery becoming healthy; where the item does not fit it is deferred; another stamp is refused and the gallery is scrubbed again. With no
slice admitted the next multiple of 16,384 in TREAD admits what waits: a waking hall becomes idle at pace high. -/
def Obligations.TestWalksScrubsAndRejoins : Prop :=
  (∀ (s : State) (ph : Fin 64) (g : Fin 16) (w : WalkResult) (t0 : Nat),
    let gi := galIdx ph.val g.val
    let recent := (s.gal gi).passes.filter (fun t => s.now < t + 2 ^ 34)
    (s.gal gi).walk = some t0 →
    (w.phase = 0 → w.corrected ≤ s.flt.walkCe.toNat → recent.length < s.flt.repLim.toNat →
      let s1 := s.updGal gi (fun x => { x with walk := none, scrubbing := true, scrubEnd := s.now + 2560, passes := recent ++ [s.now] })
      Machine.exec (.testWalkComplete ph g w) s =
        .next (({ s1 with flt := { s1.flt with walkPass := satInc s1.flt.walkPass } }).raise
          { cause := 0x020E, src := some ph.val, ph := BitVec.ofNat 8 ph.val, g := BitVec.ofNat 8 g.val
            slice := (s.hall ph.val).mapped, detail := BitVec.ofNat 64 (min 255 (recent.length + 1)) }))
    ∧ (w.phase ≠ 0 →
      ∃ t, Machine.exec (.testWalkComplete ph g w) s = .next t ∧ (t.gal gi).walk = none
        ∧ (t.gal gi).walkFailed = true ∧ (t.gal gi).cond = (s.gal gi).cond
        ∧ t.flt.walkFail = satInc s.flt.walkFail
        ∧ (t.flt.seq = s.flt.seq ∨ ((t.gal gi).walkRec = some t.flt.last
            ∧ t.flt.last.extractLsb' 0 16 = 0x020F ∧ t.flt.seq = s.flt.seq + 1))))
  ∧ (∀ (s : State) (ph : Fin 64) (g : Fin 16),
    let gi := galIdx ph.val g.val
    ((s.gal gi).scrubbing = true → Claims.comes s (s.gal gi).scrubEnd →
      ∃ t, Machine.exec (.galleryScrubComplete ph g) s = .next t ∧ (s.gal gi).scrubEnd ≤ t.now
        ∧ (∀ b < 0x140000, t.readByte (storeAddr gi b) = 0)
        ∧ (∀ a, a < storeAddr gi 0 ∨ storeAddr gi 0x140000 ≤ a → t.readByte a = s.readByte a)
        ∧ (t.gal gi).poisoned = [] ∧ (t.gal gi).cond = .rejoining ∧ (t.gal gi).scrubbing = false
        ∧ (t.gal gi).stamp = some (match (s.hall ph.val).mapped with | none => 0 | some k => (s.sl k).err.epoch)
        ∧ Claims.sameRegs (t.gal gi) (s.gal gi))
    ∧ (∀ (slice : BitVec 8) (st : Word), let k := slice.toNat
      (s.hall ph.val).mapped = some k → (s.sl k).phase = .landing → (s.sl k).land.reported = false →
      (s.gal gi).cond = .rejoining → (s.gal gi).scrubbing = false → (s.gal gi).stamp = some st →
      (s.landingUnits k).head? = some (.gallery ph g) →
      (st = (s.sl k).err.epoch → s.rejoinFits k (.gallery ph g) = true →
        ∃ t, Machine.exec (.rejoinAdmission slice (.gallery ph g)) s = .next t ∧ (t.gal gi).cond = .healthy
          ∧ (t.gal gi).stamp = none ∧ (t.sl k).land.flags.getLsbD 10 = true
          ∧ SMap.get 0 (t.sl k).land.items ph.val = SMap.get 0 (s.sl k).land.items ph.val + 128)
      ∧ (st = (s.sl k).err.epoch → s.rejoinFits k (.gallery ph g) = false →
        Machine.exec (.rejoinAdmission slice (.gallery ph g)) s = .next (s.updLand k (fun l => l.flag 11)))
      ∧ (st ≠ (s.sl k).err.epoch →
        ∃ t, Machine.exec (.rejoinAdmission slice (.gallery ph g)) s = .next t ∧ (t.gal gi).cond = .rejoining
          ∧ (t.gal gi).scrubbing = true ∧ (t.gal gi).scrubEnd = s.now + 2560 ∧ (t.gal gi).stamp = none ∧ t.flt.rejoinRef = satInc s.flt.rejoinRef))
    ∧ (let t0 := (s.now + 16383) / 16384 * 16384
      s.admitted = [] → Claims.comes s t0 → s.idleUnits = [.hall ph] →
      Machine.exec .idleRejoinTick s = .next ((s.waitUntil t0).updHall ph.val (fun h => { h with
        st := .idle, reg := { h.reg with pace := 0 }, pwr := { h.pwr with stamp := none, wakeAt := none } }))))

/-- GALLERY_FENCE, for a failed walk at a landing of the hall's slice: the gallery is fenced for good, its store is undefined and its
registers are cleared, the fence enters the sealed record and counts there, and the hall is withdrawn.
The notice of an aborted step goes out once no hall of the slice is testing; a notice that waited for a completion entry is written
when one is free, oldest first. -/
def Obligations.FencesAndNotices : Prop :=
  (∀ (s : State) (ph : Fin 64) (g : Fin 16),
    let gi := galIdx ph.val g.val
    (s.gal gi).walkFailed = true → s.landsNow ph.val = true →
    ∃ t, Machine.exec (.galleryFence ph g) s = .next t ∧ (t.gal gi).cond = .fenced
      ∧ SMap.get false t.sec.flash.fences gi = true ∧ t.sec.flash.counter = s.sec.flash.counter + 1
      ∧ (t.hall ph.val).st = .withdrawn ∧ (t.hall ph.val).heads = [] ∧ (t.gal gi).v = [] ∧ (t.gal gi).banks = []
      ∧ (∀ b < 0x140000, ∃ tag, t.readByte (storeAddr gi b) = Config.freeByte tag (storeAddr gi b))
      ∧ (∀ a, a < storeAddr gi 0 ∨ storeAddr gi 0x140000 ≤ a → t.readByte a = s.readByte a))
  ∧ (∀ s : State,
    (∀ slice : BitVec 8, let k := slice.toNat
      (s.sl k).err.noticeDue = true → (∀ ph ∈ s.hallsOf k, (s.hall ph).st ≠ .testing) →
      Machine.exec (.stepAbortedNotice slice) s =
        .next ((s.updSl k (fun x => { x with err := { x.err with noticeDue := false, notice := none } })).notice 0x03
          (BitVec.ofNat 64 k) [k] (s.sl k).err.notice))
    ∧ (∀ (q : Fin 16) (x : Notice) (rest : List Notice), (s.queue q.val).notices = x :: rest →
      (s.queue q.val).free ≠ 0 → (s.queue q.val).err = false → (s.queue q.val).idle = false →
      ∃ t, Machine.exec (.lateNoticeWrite q) s = .next t ∧ (t.queue q.val).notices = rest
        ∧ (t.queue q.val).cqW = (s.queue q.val).cqW + 1
        ∧ (∀ a, a < (s.queue q.val).cqb.toNat + (s.queue q.val).cqW.toNat % 2 ^ (s.queue q.val).cqLog.toNat * 128
            ∨ (s.queue q.val).cqb.toNat + (s.queue q.val).cqW.toNat % 2 ^ (s.queue q.val).cqLog.toNat * 128 + 128 ≤ a →
          memGet t.hostMem t.hostUndef a = memGet s.hostMem s.hostUndef a)
        ∧ t.mem = s.mem))

/-! ### Memory controllers -/

namespace Sys2Proof.Claims
open Sys2Proof.Machine

/-- The state in which the next frame of controller `c` begins. -/
def frameState (s : State) (c : Nat) : State :=
  let s1 := s.waitUntil (s.nextFrame c)
  s1.updMc c (fun m => { m with next := s1.now + 1, busy := m.busy.filter (fun e => s1.now < e.2) })

end Sys2Proof.Claims

/-- MEMORY_FRAME waits for the next frame of its controller. With nothing due it only starts that frame and, at lag 0 with nothing
delayed, does opportunistic refresh; one due read or write whose pseudo-channels, data and room are there serves its request, and the
controller's lag is what the entry was late by.
Refresh debts rise by 1, to 32 at most, at REFRESH_DEBT_TICK, at the next multiple of the band's interval that has brought no tick yet; an
urgent refresh brings a debt of 32 to 24, counts, and holds its pseudo-channel for 256 treads.
A write that is served puts the lines as they stood at issue at the offset of the request, outside a commit region. -/
def Obligations.MemoryFramesAndRefresh : Prop :=
  (∀ (s : State) (stack : Fin 14),
    let c := stack.val
    s.hasStack c = true → (s.mc c).selfref = false → s.mainOn = true →
    ((s.mc c).flights = [] →
      let t0 := (max s.now (s.mc c).next + 15) / 16 * 16
      Claims.comes s t0 →
      ∃ t, Machine.exec (.memoryFrame stack []) s = .next t ∧ t.now = t0 ∧ (t.mc c).next = t0 + 1 ∧ (t.mc c).lagCur = (s.mc c).lagCur
        ∧ (∀ p < 64, SMap.get 0 (t.mc c).debt p = SMap.get 0 (s.mc c).debt p
            ∨ ((s.mc c).lagCur = 0 ∧ (s.mc c).waitLag = 0
              ∧ SMap.get 0 (t.mc c).debt p = SMap.get 0 (s.mc c).debt p - 1))
        ∧ { t with mcs := s.mcs } = s.waitUntil t0 ∧ ∀ d, d ≠ c → t.mc d = s.mc d)
    ∧ (∀ (d : SlotDue) (r : MemReq),
      let s1 := Claims.frameState s c
      let mask := slotMask d.bits
      Claims.comes s (s.nextFrame c) → s1.dueAt c = [d] → (slotKind d.bits = 1 ∨ slotKind d.bits = 2) →
      (s1.mc c).matching d [] = some r → s1.reqReady r = true →
      (∀ p < 64, mask.getLsbD p = true → SMap.get 0 (s1.mc c).busy p ≤ s1.now) →
      ∃ t, Machine.exec (.memoryFrame stack []) s = .next t ∧ t.mem = (s1.serve c r mask).mem
        ∧ t.gals = (s1.serve c r mask).gals ∧ t.xport = (s1.serve c r mask).xport
        ∧ (t.mc c).lagCur = satAdd 0 (s1.now - d.at_) ∧ (t.mc c).waitLag = 0)
    ∧ (let ti := bandTI (s.mc c).band
      let t0 := ceilTo ti (match (s.mc c).tickAt with | some x => max s.now (x + 1) | none => s.now)
      Claims.comes s t0 →
      ∃ t, Machine.exec (.refreshDebtTick stack) s = .next t ∧ t.now = t0 ∧ t0 % ti = 0
        ∧ (∀ p < 64, SMap.get 0 (t.mc c).debt p = min 32 (SMap.get 0 (s.mc c).debt p + 1))
        ∧ { t with mcs := s.mcs } = s.waitUntil t0 ∧ (∀ d, d ≠ c → t.mc d = s.mc d)
        ∧ (t.mc c).tickAt = some t0 ∧ { t.mc c with debt := (s.mc c).debt, tickAt := (s.mc c).tickAt } = s.mc c)
    ∧ (∀ pc : Fin 64, SMap.get 0 (s.mc c).debt pc.val = 32 →
      ∃ t, Machine.exec (.urgentRefresh stack pc) s = .next t
        ∧ SMap.get 0 (t.mc c).debt pc.val = 24 ∧ SMap.get 0 (t.mc c).busy pc.val = s.now + 256
        ∧ (t.mc c).urgent = satInc (s.mc c).urgent ∧ { t with mcs := s.mcs } = s
        ∧ (∀ p, p ≠ pc.val → SMap.get 0 (t.mc c).debt p = SMap.get 0 (s.mc c).debt p
            ∧ SMap.get 0 (t.mc c).busy p = SMap.get 0 (s.mc c).busy p)
        ∧ { t.mc c with debt := (s.mc c).debt, busy := (s.mc c).busy, urgent := (s.mc c).urgent } = s.mc c))
  ∧ (∀ (s : State) (c : Nat) (r : MemReq) (l : Line) (mask : BitVec 64),
    r.kind = .hst → r.n = 1 → r.lines = [(l, false)] → r.win = 0 → r.off % 512 = 0 →
    stackOfLine (r.off / 512) = c → mask.getLsbD (pcOf (r.off / 512)) = true → (s.mc c).cregs = [] →
    (∀ b < 512, (s.serve c r mask).readByte (r.off + b) = l.extractLsb' (8 * b) 8)
    ∧ (∀ a, a < r.off ∨ r.off + 512 ≤ a → (s.serve c r mask).readByte a = s.readByte a)
    ∧ (∀ x ∈ ((s.serve c r mask).mc c).reqs, x.id ≠ r.id) ∧ (s.serve c r mask).gals = s.gals)

/-- SLOT_SEGMENT_ARRIVAL before a launch makes the first segment of a resident flight present; the segment that a continuation asked for
joins the flight's table when its last line finds its slot and its places and its entries find room. PATROL_SCRUB_READ reads one line on
each pseudo-channel that is due and open, checks it, and moves on.
A stack that no running or candidate flight uses enters self-refresh, and leaves it with a debt of 0. A command that names a stack which
the grade does not have stops. -/
def Obligations.SegmentsPatrolScrubAndSelfRefresh : Prop :=
  (∀ (s : State) (stack : Fin 14),
    let c := stack.val
    s.hasStack c = true →
    (∀ (f : BitVec 12) (x : Flight) (es : List (BitVec 128)), s.flight f.toNat = some x →
      (s.mc c).flights.find? (fun y => y.flight = f.toNat && y.fetch.isSome) = none → (c, es) ∈ x.slotTabs → c ∉ x.segsIn →
      Machine.exec (.slotSegmentArrival stack f) s = .next (s.setFlight f.toNat (some { x with segsIn := x.segsIn ++ [c] })))
    ∧ (∀ (f : BitVec 12) (x : McFlight) (off base : Nat) (s1 : State),
      let es := s.readSlots off
      x.fetch = some (off, base) → (s.mc c).flights.find? (fun y => y.flight = f.toNat && y.fetch.isSome) = some x →
      (s.mc c).entries + es.length ≤ 16384 → s.unschedRead (off + 16 * es.length) (dieOfStack c) = some s1 →
      ∃ t, Machine.exec (.slotSegmentArrival stack f) s = .next t
        ∧ (t.mc c).flights = (s.mc c).flights.map (fun y => if y.flight = f.toNat then
            { y with fetch := none, segs := y.segs ++ [⟨base, es, es.map (fun _ => 0)⟩] } else y)
        ∧ { t.mc c with flights := (s.mc c).flights } = s.mc c ∧ (∀ d, d ≠ c → t.mc d = s.mc d)
        ∧ { t with mcs := s.mcs, xport := s.xport } = s)
    ∧ ((s.mc c).scrubEn = true → (s.mc c).selfref = false → s.mainOn = true → Claims.comes s (s.patrolTime c) → s.upsets = [] →
      let s1 := s.waitUntil (s.patrolTime c)
      let i := 16 * (s.mc c).scrubInt.toNat
      (∃ t, Machine.exec (.patrolScrubRead stack []) s = .next t ∧ { t with mcs := s.mcs } = s1 ∧ (∀ d, d ≠ c → t.mc d = s.mc d)
        ∧ { t.mc c with scrubPtr := (s.mc c).scrubPtr, scrubDue := (s.mc c).scrubDue } = s.mc c
        ∧ ∀ p < 64,
          (p ∈ s1.scrubPcs c → SMap.get 0 (t.mc c).scrubPtr p = (SMap.get 0 (s.mc c).scrubPtr p + 1) % 2621440
            ∧ SMap.get 0 (t.mc c).scrubDue p = (s1.now / i + 1) * i)
          ∧ (p ∉ s1.scrubPcs c → SMap.get 0 (t.mc c).scrubPtr p = SMap.get 0 (s.mc c).scrubPtr p
            ∧ SMap.get 0 (t.mc c).scrubDue p = SMap.get 0 (s.mc c).scrubDue p))
      ∧ (∀ (p word : Nat) (die : Bool), p ∈ s1.scrubPcs c → SMap.get 0 (s.mc c).scrubPtr p < 2621440 →
        ∃ t, Machine.exec (.patrolScrubRead stack
            [⟨.hbm (c * stackLines + SMap.get 0 (s.mc c).scrubPtr p * 64 + p) word, true, die⟩]) s = .next t ∧ t.upsets = []
          ∧ (t.mc c).ceDie = (if die then satAdd (s.mc c).ceDie 1 else (s.mc c).ceDie)
          ∧ (t.mc c).ceLink = (if die then (s.mc c).ceLink else satAdd (s.mc c).ceLink 1)
          ∧ (t.mc c).ue = (s.mc c).ue ∧ t.flt = s.flt ∧ t.mem = s.mem)))
  ∧ (∀ (s : State) (stack : Fin 14),
    let c := stack.val
    (s.hasStack c = true → s.mcUsed c = false → s.mainOn = true →
      Machine.exec (.selfRefreshEntry stack) s = .next (s.updMc c (fun m => { m with selfref := true, opp := [] })))
    ∧ (s.hasStack c = true → (s.mc c).selfref = true →
      Machine.exec (.selfRefreshExit stack) s =
        .next (s.updMc c (fun m => { m with selfref := false, debt := [], opp := [], busy := [] })))
    ∧ (s.hasStack c = false → ∀ i ∈ [Instr.memoryFrame stack [], .slotSegmentArrival stack 0, .patrolScrubRead stack [],
        .refreshDebtTick stack, .urgentRefresh stack 0, .selfRefreshEntry stack, .selfRefreshExit stack],
      Machine.exec i s = .fault .absentUnit))

/-! ### Timetables -/

namespace Sys2Proof.Claims
open Sys2Proof.Machine

/-- Action `a` stands first in the list of context `c`, is one of operation `op`, may act, and its fire tread comes; the hall that it
names runs its flight. -/
def fires (s : State) (c op : Nat) (a : TtAct) : Prop :=
  (s.ctx c).en = true ∧ (s.ctx c).head = some a ∧ a.e.op = op ∧ s.mayAct (s.ctxSlice c) a.t = true
    ∧ comes s (s.rawOf (s.ctxSlice c) a.t) ∧ s.hallOut (s.ctxSlice c) a.flight a.e.vh a.e.en = false

/-- The state at the fire tread, or now when that has passed. -/
def atFire (s : State) (c : Nat) (a : TtAct) : State := s.waitUntil (s.rawOf (s.ctxSlice c) a.t)

/-- The outcome of an action that leaves `u`: the repetition is done, and the context's lag is what TREAD has passed the fire tread
by. -/
def fired (s : State) (c : Nat) (a : TtAct) (u : State) : Out :=
  let n := (atFire s c a).now - s.rawOf (s.ctxSlice c) a.t
  .next (u.updCtx c (fun x =>
    ({ x with lagCur := satAdd 0 n, lagMax := bvMax x.lagMax (satAdd 0 n) }).advance a))

/-- The transmission that an action starts. -/
def job (s : State) (c : Nat) (a : TtAct) (rel : Bool) : TxJob :=
  { port := (a.bayA c).1, bay := (a.bayA c).2, frames := a.e.size, next := 0, rel
    cls := if (a.bayA c).2 < 96 then 0 else 1, pid := a.pid, waiting := none, at_ := (atFire s c a).now }

/-- The entry of a RECV or REDUCE opened at its fire tread: as a new entry, or as the one that its parcel was matched to before, which is
done with when that parcel has come. -/
def opened (s : State) (c : Nat) (a : TtAct) (red : Bool) : State :=
  let b := a.bayA c
  let s1 := atFire s c a
  let raw := s.rawOf (s.ctxSlice c) a.t
  match (s.ctx c).early b a.pid with
  | none => (s1.updBay (bayKey b) (fun x => { x with expect := true })).updCtx c (fun x =>
      { x with awaits := x.awaits ++ [{ pid := a.pid, bayP := b.1, bay := b.2, frames := a.e.size, fired := true, matched := false
                                        missAt := raw + 512, openAt := raw - 2048, reduce := red, red := a.e.red
                                        bPort := arcPort c a.e.portB, bBay := a.e.bayB, vh := a.e.vh, en := a.e.en }] })
  | some w => s1.updCtx c (fun x =>
      { x with awaits := x.awaits.erase w ++ (if w.done then [] else [{ w with fired := true }]) })

end Sys2Proof.Claims

/-- SEND and MCAST start a transmission of bay A on their contexts when frame 0 is there and the header agrees with the entry; a
disagreement is a fault, and a SEND whose data are not there waits.
RECV and REDUCE open an entry for their parcel, missing 512 treads after the fire tread, and mark the bay as expected, or take the entry of
a parcel that came early, which is done with when that parcel is complete; REDUCE also asks the reduction unit for its combine. -/
def Obligations.TimetableTransmissionsAndReceptions : Prop :=
  (∀ (s : State) (p : Fin 30) (n : Fin 64) (a : TtAct),
    let c := 64 * p.val + n.val
    let b := a.bayA c
    let s1 := Claims.atFire s c a
    s.hasPort p.val = true →
    (Claims.fires s c 1 a → (s.ctx c).dead = false →
      ((s.bay (bayKey b)).frameReady 0 = true → (s.bay (bayKey b)).sendFault a = none →
        Machine.exec (.send p n) s = Claims.fired s c a
          ((s1.updCtx c (fun x => { x with jobs := x.jobs ++ [Claims.job s c a a.e.rel] })).updBay (bayKey b)
            (fun x => { x with users := x.users + 1 })))
      ∧ (∀ cause, (s.bay (bayKey b)).frameReady 0 = true → (s.bay (bayKey b)).sendFault a = some cause →
        Machine.exec (.send p n) s = Claims.fired s c a (s1.ctxFault cause c b.2 a.pid))
      ∧ ((s.bay (bayKey b)).frameReady 0 = false → Machine.exec (.send p n) s = .next s1))
    ∧ (Claims.fires s c 2 a → (s.maskCtxs c a.e.mask) ≠ [] →
      (∀ d ∈ s.maskCtxs c a.e.mask, (s.ctx d).dead = false) →
      (s.bay (bayKey b)).frameReady 0 = true → (s.bay (bayKey b)).sendFault a = none →
      Machine.exec (.mcast p n) s = Claims.fired s c a
        ((s1.each (s.maskCtxs c a.e.mask) (fun s' d =>
          s'.updCtx d (fun x => { x with jobs := x.jobs ++ [Claims.job s c a a.e.rel] }))).updBay (bayKey b)
          (fun x => { x with users := x.users + (s.maskCtxs c a.e.mask).length }))))
  ∧ (∀ (s : State) (p : Fin 30) (n : Fin 64) (a : TtAct),
    let c := 64 * p.val + n.val
    let b := a.bayA c
    s.hasPort p.val = true →
    (Claims.fires s c 3 a → Machine.exec (.recv p n) s = Claims.fired s c a (Claims.opened s c a false))
    ∧ (Claims.fires s c 4 a → Machine.exec (.reduce p n) s = Claims.fired s c a
        ((Claims.opened s c a true).updArc (c / 64 / 6) (fun y =>
          { y with combs := putComb ⟨s.rawOf (s.ctxSlice c) a.t, b.1, b.2, arcPort c a.e.portB, a.e.bayB, a.e.red, 0, c, a.pid⟩ y.combs }))))

/-- COPY, once bay A is filled and bay B free, sends the lines of bay A to the relay die, each in its turn among the lines that wait; FREE empties a bay that no transmission reads, whose credit returns, and has the last
transmission empty another;
TSEND takes its records from the outbox into a parcel in an empty bay and starts its transmission; CONT asks for the next segment. -/
def Obligations.CopyFreeTsendAndCont : Prop :=
  ∀ (s : State) (p : Fin 30) (n : Fin 64) (a : TtAct),
    let c := 64 * p.val + n.val
    let b := a.bayA c
    let s1 := Claims.atFire s c a
    s.hasPort p.val = true →
    (let x := s.bay (bayKey b)
     let kb := (a.e.arcB * 6 + a.e.portB) * 128 + a.e.bayB
     (Claims.fires s c 5 a → s.bay kb = {} → kb ≠ bayKey b →
      ((x.owner.isSome = true ∧ x.whole = true) ∨ (x.owner = none ∧ (a.e.size < 17 ∨ x.present.getLsbD 16 = true)
        ∧ ∀ l < min 16 (if a.e.size = 17 then payLines (hdrLen x.hdr) else a.e.size), x.present.getLsbD l = true)) →
      let lines : List StwLine := (List.range a.e.size).map (fun l =>
        { src := 4 + c / 64 / 6, dst := a.e.relay, sched := true, fails := 0, due := 0, line := 0, poison := false
          dest := .copy (a.e.arcB * 6 + a.e.portB) a.e.bayB l b.1 b.2 (l + 1 = a.e.size) a.e.rel
          at_ := s.rawOf (s.ctxSlice c) a.t })
      Machine.exec (.copy p n) s = Claims.fired s c a
        { (s1.updBay (bayKey b) (fun x => { x with users := x.users + 1 })).updBay kb (fun x => { x with expect := true, copied := true }) with
          xport := { s.xport with waiting := lines.foldl (fun ls l => placeLine l ls) s.xport.waiting } })
     ∧ (Claims.fires s c 5 a → s.bay kb ≠ {} → Machine.exec (.copy p n) s = .next s1))
    ∧ (Claims.fires s c 6 a → (s.bay (bayKey b)).users = 0 →
      Machine.exec (.free p n) s = Claims.fired s c a (s1.freeBay b.1 b.2)
        ∧ (s1.freeBay b.1 b.2).bay (bayKey b) = {})
    ∧ (Claims.fires s c 6 a → (s.bay (bayKey b)).users ≠ 0 →
      Machine.exec (.free p n) s = Claims.fired s c a (s1.updBay (bayKey b) (fun x => { x with rel := true })))
    ∧ (Claims.fires s c 7 a → (s.ctx c).dead = false → a.e.size ≤ (s.port p.val).outbox.length →
      s.bay (bayKey b) = {} →
      ∃ t, Machine.exec (.tsend p n) s = .next t ∧ (t.port p.val).outbox = (s.port p.val).outbox.drop a.e.size
        ∧ (t.ctx c).jobs = (s.ctx c).jobs ++
            [{ Claims.job s c a true with frames := 1 }]
        ∧ hdrPid (t.bay (bayKey b)).hdr = a.pid ∧ (t.bay (bayKey b)).users = 1)
    ∧ (Claims.fires s c 8 a →
      Machine.exec (.cont p n) s = Claims.fired s c a (s1.updCtx c (fun x => { x with
        streams := x.streams.map (fun st => if st.flight = a.flight then { st with fetch := some (a.e.off, a.t) } else st) })))

/-- TIMETABLE_SEGMENT_ARRIVAL puts the 64 entries of HBM that a CONT asked for behind the segment in use, when their last line finds its
frame and its places; before a launch it makes the first segments of a resident flight for the context present. MISSING_PARCEL, once the
missing-parcel tread has come, moved by the pauses of the link, puts a placeholder in the bay, drops the entry, and counts.
REDUCE_COMBINE of a placeholder poisons every line of bay B and ends the combine; a line that combines is counted and ORs its
poison into the line of bay B. TOKEN_RECORD_DELIVERY hands the records of a complete parcel to the stair controllers in order and frees
the bay. -/
def Obligations.TimetableSegmentsPlaceholdersAndCombines : Prop :=
  (∀ (s : State) (p : Fin 30) (n : Fin 64),
    let c := 64 * p.val + n.val
    s.hasPort p.val = true →
    (∀ (f : BitVec 12) (st : Stream) (off : Nat) (base : Word64) (s1 : State),
      st.fetch = some (off, base) → (s.ctx c).streams.find? (fun y => y.flight = f.toNat && y.fetch.isSome) = some st →
      s.unschedRead (off + 2047) (4 + p.val / 6) = some s1 →
      ∃ t, Machine.exec (.timetableSegmentArrival p n f) s = .next t
        ∧ (t.ctx c).streams = (s.ctx c).streams.map (fun y => if y.flight = f.toNat then
            { y with fetch := none, segs := y.segs.drop (y.segs.length - 1) ++ [Seg.start base ((List.range 64).map (fun i =>
              BitVec.ofNat 256 (leNat (s.readBytes (off + 32 * i) 32))))] } else y)
        ∧ { t.ctx c with streams := (s.ctx c).streams } = s.ctx c ∧ (∀ d, d ≠ c → t.ctx d = s.ctx d)
        ∧ { t with ctxs := s.ctxs, xport := s.xport } = s)
    ∧ (∀ (f : BitVec 12) (x : Flight),
      (s.ctx c).streams.find? (fun y => y.flight = f.toNat && y.fetch.isSome) = none → s.flight f.toNat = some x →
      Machine.exec (.timetableSegmentArrival p n f) s = .next (s.setFlight f.toNat (some { x with
        ttsIn := x.ttsIn ++ (x.tts.map (fun t => t.1)).filter (fun l =>
          decide (s.sliceCtx x.slice.toNat l = some c) && !x.ttsIn.contains l) })))
    ∧ (∀ w : Await, (s.ctx c).awaits.find? (fun y => y.fired) = some w →
      let s1 := s.waitUntil (s.missTread c w)
      s1.missTread c w ≤ s1.now →
      ∃ t, Machine.exec (.missingParcel p n) s = .next t ∧ t.now = s1.now
        ∧ (t.bay (w.bayP * 128 + w.bay)).flags.getLsbD 0 = true ∧ (t.bay (w.bayP * 128 + w.bay)).poison = 0xFFFF#17
        ∧ (t.bay (w.bayP * 128 + w.bay)).owner = some c ∧ (t.ctx c).awaits = (s.ctx c).awaits.erase w
        ∧ (t.ctx c).missed = (s.ctx c).missed ++ [w.pid] ∧ (t.ctx c).miss = satInc (s.ctx c).miss))
  ∧ (∀ s : State,
    (∀ (a : Fin 5) (k : Nat) (x : Comb), a.val < arcadesOf s.cfg.grade → (s.arc a.val).combs[k]? = some x →
      s.combReady a.val k x = true → (x.aPort, x.aBay) ≠ (x.bPort, x.bBay) →
      x.aPort * 128 + x.aBay ≠ x.bPort * 128 + x.bBay →
      ((s.bay (x.aPort * 128 + x.aBay)).flags.getLsbD 0 = true →
        ∃ t, Machine.exec (.reduceCombine a k) s = .next t
          ∧ (t.bay (x.bPort * 128 + x.bBay)).poison = BitVec.allOnes 17
          ∧ (t.arc a.val).combs = (s.arc a.val).combs.erase x ∧ t.mem = s.mem)
      ∧ ((s.bay (x.aPort * 128 + x.aBay)).flags.getLsbD 0 = false →
        (x.line = 0 → reduceBad (s.bay (x.aPort * 128 + x.aBay)) (s.bay (x.bPort * 128 + x.bBay)) x.red = false) →
        ∃ t, Machine.exec (.reduceCombine a k) s = .next t ∧ (t.arc a.val).redLines = satInc (s.arc a.val).redLines
          ∧ (∀ l < 17, l ≠ x.line → (t.bay (x.bPort * 128 + x.bBay)).poison.getLsbD l =
              (s.bay (x.bPort * 128 + x.bBay)).poison.getLsbD l) ∧ t.mem = s.mem))
    ∧ (∀ (p : Fin 30) (bay : Fin 128) (c : Nat) (tks : List Token),
      let b := s.bay (p.val * 128 + bay.val)
      s.hasPort p.val = true → b.owner = some c → 96 ≤ bay.val → bay.val < 104 → b.whole = true → b.expect = false →
      hdrClass b.hdr = 1 → hdrKind b.hdr = 0 → s.forwards p.val bay.val (hdrPid b.hdr) = false →
      (List.range (min (hdrCount b.hdr) 16)).map (fun i =>
        recordToken (s.ctx c).slice (BitVec.ofNat 64 (b.payload (hdrLen b.hdr) / 2 ^ (64 * i)))) = tks.map some →
      Machine.exec (.tokenRecordDelivery p bay) s =
        .next ((s.each tks (fun s' tk => s'.deliverToken tk)).releaseBay (p.val, bay.val))))

/-! ### Fabric and storage -/

/-- A control parcel goes on along the slice tree: reports toward the master, epoch parcels, releases and outcomes to the children. The
first epoch parcel from the parent of an admitted slice sets its epoch, when its slice tread 0 still lies ahead, and is relayed, and refuses
the admission otherwise; one for a slice that is not admitted yet is kept; any other is dropped and counted.
A share announcement is kept for its slice and gives the context its credit counts; a beacon leaves at once on a link that is up, and then
every interval, and counts on; a compatible one is recorded as the neighbour; four intervals without one are recorded, the neighbour no longer known. -/
def Obligations.ControlParcelsAnnouncementsAndBeacons : Prop :=
  (∀ s : State,
    (∀ (i n : Nat) (r : HoldReport), s.relays[i]? = some (.hold n r) → Machine.exec (.controlParcelRelay i) s =
      .next (({ s with relays := s.relays.eraseIdx i }).each (s.parentLink (s.sl n).id).toList (fun s l =>
        s.sendUnsch (2 * l.1 + l.2) 1 2 n r.chip r.ordinal (holdBytes r))))
    ∧ (∀ (i n : Nat) (r : Release), s.relays[i]? = some (.release n r) → Machine.exec (.controlParcelRelay i) s =
      .next (({ s with relays := s.relays.eraseIdx i }).each (s.childLinks (s.sl n).id) (fun s' l =>
        s'.sendUnsch (2 * l.1 + l.2) 1 3 n (s.masterOf n) r.ordinal (releaseBytes r))))
    ∧ (∀ (i n : Nat) (r : CommitReport), s.relays[i]? = some (.report n r) → Machine.exec (.controlParcelRelay i) s =
      .next (({ s with relays := s.relays.eraseIdx i }).each (s.parentLink (s.sl n).id).toList (fun s' l =>
        s'.sendUnsch (2 * l.1 + l.2) 1 4 n r.chip r.ordinal (reportBytes r))))
    ∧ (∀ (i n : Nat) (o : CommitOutcome), s.relays[i]? = some (.outcome n o) → Machine.exec (.controlParcelRelay i) s =
      .next (({ s with relays := s.relays.eraseIdx i }).each (s.childLinks (s.sl n).id) (fun s' l =>
        s'.sendUnsch (2 * l.1 + l.2) 1 5 n (s.masterOf n) o.ordinal (outcomeBytes o))))
    ∧ (∀ (i n : Nat) (e u : Word64), s.relays[i]? = some (.epoch n e u) → Machine.exec (.controlParcelRelay i) s =
      .next (({ s with relays := s.relays.eraseIdx i }).each (s.childLinks (s.sl n).id) (fun s' l =>
        s'.sendUnsch (2 * l.1 + l.2) 1 1 n s.cfg.chip 0 (epochBytes e u))))
    ∧ (∀ (p : Fin 30) (h : Fin 2) (slice : BitVec 8) (chip : BitVec 16) (epoch sent : Word64),
      let k := slice.toNat
      let l := 2 * p.val + h.val
      let s1 := s.takeIn (isCtl k 1 (epochBytes epoch sent))
      let diff := s.clk.tread - sent - BitVec.ofNat 64 (s1.link l).delay
      s.hasLink p.val h.val = true →
      ((s.sl k).admitted = true → (s.sl k).epochSet = false → s1.parentLink (s.sl k).id = some (p.val, h.val) →
        (s.clk.tread - (epoch + diff)).toInt ≤ 0 →
        Machine.exec (.epochParcelReceipt p h slice chip epoch sent) s =
          .next ((s1.updSl k (fun x => { x with
            epoch := epoch + diff, offset := 0, epochDiff := diff, epochSet := true, kept := none })).relay
              (.epoch k (epoch + diff) 0)))
      ∧ ((s.sl k).admitted = true → (s.sl k).epochSet = false → s1.parentLink (s.sl k).id = some (p.val, h.val) →
        0 < (s.clk.tread - (epoch + diff)).toInt →
        Machine.exec (.epochParcelReceipt p h slice chip epoch sent) s =
          .next (s1.updSl k (fun x => { x with admitted := false, refused := true, kept := none })))
      ∧ ((s.sl k).admitted = false → (s.sl k).refused = false →
        Machine.exec (.epochParcelReceipt p h slice chip epoch sent) s =
          .next (s1.updSl k (fun x => { x with kept := some ⟨l, chip, epoch, sent, s.now⟩ })))
      ∧ ((s.sl k).admitted = true → (s.sl k).epochSet = true →
        Machine.exec (.epochParcelReceipt p h slice chip epoch sent) s = .next (s1.updLink l (fun x =>
          { x with cnt := { x.cnt with drop := satInc x.cnt.drop } })))))
  ∧ (∀ (s : State) (p : Fin 30) (h : Fin 2), s.hasLink p.val h.val = true →
    (∀ slice sb cb : BitVec 8,
      let l := 2 * p.val + h.val
      ∃ t, Machine.exec (.shareAnnouncementReceipt p h slice sb cb) s = .next t
        ∧ SMap.get (0, 0) (t.link l).anns slice.toNat = (sb.toNat, cb.toNat)
        ∧ (∀ c, s.sliceCtx slice.toNat l = some c → s.ctxLink c = l →
            (s.ctx c).slice = slice → (t.ctx c).sCred = sb.toNat ∧ (t.ctx c).cCred = cb.toNat))
    ∧ (let l := 2 * s.lowPort p.val + h.val
      ((s.link l).phase = .up → (s.link l).bcnWaits = false →
        ((s.link l).bcnSent = true → Claims.comes s ((s.link l).bcnAt + s.bcnTreads)) →
        ∃ t, Machine.exec (.beaconSend p h) s = .next t ∧ (t.link l).bcnSeq = (s.link l).bcnSeq + 1
          ∧ (t.link l).bcnAt = t.now ∧ ((s.link l).bcnSent = false → t.now = s.now)
          ∧ ((s.link l).bcnSent = true → (s.link l).bcnAt + s.bcnTreads ≤ t.now) ∧ (t.link l).sq.mq.length = (s.link l).sq.mq.length + 1
          ∧ (∀ x, (t.link l).sq.mq.getLast? = some x → x.bytes = beaconBytes (s.ownBeacon l) ∧ x.chan = 66)
          ∧ { t with links := s.links, clk := s.clk } = s)
      ∧ (∀ b : Beacon, (s.link l).phase = .up → beaconReserved b = false → s.compatible l b = true →
        (s.link l).nbr.state ≠ 3 →
        ∃ t, Machine.exec (.beaconReceipt p h b) s = .next t ∧ (t.link l).nbr.state = 3
          ∧ (t.link l).nbr.chip = b.chip ∧ (t.link l).nbr.arcade = b.arcade.truncate 3
          ∧ (t.link l).nbr.index = b.index.truncate 3 ∧ (t.link l).bcnHeard = s.now)
      ∧ ((s.link l).phase = .up → ((s.link l).nbr.state = 3 ∨ (s.link l).nbr.state = 4) → Claims.comes s ((s.link l).bcnHeard + 4 * s.bcnTreads) →
        Machine.exec (.beaconLost p h) s =
          .next (((s.waitUntil ((s.link l).bcnHeard + 4 * s.bcnTreads)).updLink l (fun y =>
            { y with nbr := { y.nbr with state := 2 } })).raise
              { cause := 0x020B, src := some (128 + l / 12), detail := BitVec.ofNat 64 (l / 2 + 32 * (l % 2)) }))))

/-- The storage engine writes the data of a class D write that names this part and a range it may write, once their last line finds its
frame and its places, and acknowledges it with the same tag; it answers a read with the bytes, their poison and a status. A range that may not be touched is refused in the status, and a parcel for another part is
dropped and counted. -/
def Obligations.StorageParcelsAreServed : Prop :=
  ∀ (s : State) (p : Fin 30) (chip : BitVec 16) (d : StorageParcel), s.hasPort p.val = true →
    (let seq := s.storageSeq p.val 0 d
      let map := s.storageMap p.val 0 d
      let s1 := s.takeIn (isStorage p.val 0 d)
      let bs := d.data.take d.len.toNat
      (∀ s2, s1.mine p.val d = true → s1.rangeBad (localOff d.addr) bs.length true = none →
        s1.unschedXfer (localOff d.addr) bs.length true = some s2 →
        Machine.exec (.storageWrite p chip d) s =
          .next ((s2.partWrite (localOff d.addr) bs (mapHits map)).answer p.val 3 chip seq d bs.length 0 0 []))
      ∧ (∀ x, s1.mine p.val d = true → s1.rangeBad (localOff d.addr) bs.length true = some x →
        Machine.exec (.storageWrite p chip d) s =
          .next (s1.answer p.val 3 chip seq d bs.length (if x.1 = 2 then 1 else if x.1 = 3 then 2 else 4) 0 []))
      ∧ (s1.mine p.val d = false → Machine.exec (.storageWrite p chip d) s =
        .next (s1.updLink (2 * p.val) (fun x => { x with cnt := { x.cnt with drop := satInc x.cnt.drop } }))))
    ∧ (let seq := s.storageSeq p.val 1 d
      let s1 := s.takeIn (isStorage p.val 1 d)
      let n := min d.len.toNat 8176
      (∀ s2, s1.mine p.val d = true → s1.rangeBad (localOff d.addr) n false = none →
        s1.unschedXfer (localOff d.addr) n false = some s2 →
        let r := s2.partRead (localOff d.addr) n
        Machine.exec (.storageReadRequest p chip d []) s =
          .next (r.s.answer p.val 2 chip seq d n (if r.bad.isSome then 3 else 0) (pieceMap r.poison 0 n) r.bytes))
      ∧ (∀ x, s1.mine p.val d = true → s1.rangeBad (localOff d.addr) n false = some x →
        Machine.exec (.storageReadRequest p chip d []) s =
          .next (s1.answer p.val 2 chip seq d 0 (if x.1 = 2 then 1 else if x.1 = 3 then 2 else 4) 0 [])))

/-! ### Links -/

namespace Sys2Proof.Claims
open Sys2Proof.Machine

/-- A link that is up, whose beacon has left and whose next slot comes, with no frame to send again and no side item waiting. -/
def slotComes (s : State) (x : Link) : Prop :=
  x.phase = .up ∧ x.width ≠ 0 ∧ comes s x.slotAt ∧ x.bcnSent = true ∧ x.sq.replayQ = [] ∧ x.sq.reqs = []
    ∧ x.side.marks = [] ∧ x.side.creds = [] ∧ x.side.echo = none ∧ x.side.markDue = false

end Sys2Proof.Claims

/-- FRAME_SLOT on a link that is up with nothing to send sends an idle frame with the next parcel frame's sequence number and the
acknowledgement of the frame expected; the slot counts on and the slot carried no scheduled frame. The first transmission of the slot's
owner, when its next frame is ready and has credit, sends that frame under the next sequence number, and the frame stays in the replay
buffer. A mark becomes due 256 treads after the last (the model's choice, log entry 113), or 8,192 treads after one whose echo is not back;
the oldest frame of the buffer is sent again after the retry time; the request sent longest ago that has gone unanswered for the retry time
is queued again. -/
def Obligations.FrameSlotsMarksAndRetries : Prop :=
  ∀ (s : State) (p : Fin 30) (h : Fin 2), s.hasLink p.val h.val = true →
    let l := 2 * s.lowPort p.val + h.val
    let x := s.link l
    x.phase = .up →
    (Claims.slotComes s x → x.sq.ctlq = [] → x.sq.dq = [] → x.sq.mq = [] → s.wheelCtx l (x.slot % 16) = none →
      ∃ t, Machine.exec (.frameSlot p h) s = .next t ∧ x.slotAt ≤ t.now
        ∧ (t.link l).tx = rsEncode (frameMsg 0 0 x.sq.txSeq x.sq.rxN (0, 0) 0)
        ∧ (t.link l).lanesOut = s.lanesSend l (t.link l).tx
        ∧ (t.link l).slot = x.slot + 1 ∧ (t.link l).cnt.idle = satInc x.cnt.idle
        ∧ (t.link l).sq.rbuf = x.sq.rbuf ∧ (t.link l).sq.txSeq = x.sq.txSeq
        ∧ { t with links := s.links, clk := s.clk } = s ∧ ∀ m, m ≠ l → t.link m = s.link m)
    ∧ (∀ (c : Nat) (j : TxJob) (js : List TxJob), Claims.slotComes s x → s.wheelCtx l (x.slot % 16) = some c →
      (s.ctx c).jobs = j :: js → (s.bay (j.port * 128 + j.bay)).frameReady j.next = true → s.room l false = true →
      (j.next = 0 → 0 < (s.ctx c).credit j) →
      let kind : BitVec 2 := if j.next = 0 then 1 else 2
      let chan : BitVec 7 := BitVec.ofNat 7 (c % 64)
      let data := (s.bay (j.port * 128 + j.bay)).frame j.next
      ∃ t, Machine.exec (.frameSlot p h) s = .next t ∧ x.slotAt ≤ t.now
        ∧ (t.link l).tx = rsEncode (frameMsg kind chan x.sq.txSeq x.sq.rxN (0, 0) data)
        ∧ (t.link l).lanesOut = s.lanesSend l (t.link l).tx
        ∧ (t.link l).slot = x.slot + 1 ∧ (t.link l).cnt.idle = x.cnt.idle ∧ (t.link l).sq.txSeq = x.sq.txSeq + 1
        ∧ (t.link l).sq.rbuf = x.sq.rbuf ++ [⟨x.sq.txSeq, kind, chan, data, false, t.now⟩] ∧ t.mem = s.mem ∧ t.gals = s.gals)
    ∧ (let t0 := x.side.lastMark + (if x.side.markOut = none then 256 else 8192)
       x.side.markDue = false → Claims.comes s t0 →
      Machine.exec (.timeMarkSend p h) s = .next ((s.waitUntil t0).updLink l (fun x =>
        { x with side := { x.side with markDue := true, markOut := none } })))
    ∧ (∀ (f : TxFrame) (fs : List TxFrame), x.sq.rbuf = f :: fs → f.seq ∉ x.sq.replayQ →
      Claims.comes s (f.sentAt + x.retry) →
      ∃ t, Machine.exec (.retryTimeExpiry p h) s = .next t ∧ (t.link l).cnt.rto = satInc x.cnt.rto
        ∧ (x.reg.mode = false → (t.link l).sq.replayQ = x.sq.replayQ ++ [f.seq])
        ∧ (x.reg.mode = true → (t.link l).sq.replayQ = (f :: fs).map (fun y => y.seq)
            ∧ (t.link l).sq.replaying = true))
    ∧ (∀ (r : Req) (t0 : Nat), r ∈ x.sq.reqs → r.sentAt = some t0 →
      (∀ y ∈ x.sq.reqs, y ≠ r → ∀ t1, y.sentAt = some t1 → t0 < t1) → Claims.comes s (t0 + x.retry) →
      Machine.exec (.requestRepeat p h) s = .next ((s.waitUntil (t0 + x.retry)).updLink l (fun x =>
        { x with sq := { x.sq with reqs := x.sq.reqs.map (fun y => if y = r then { y with sentAt := none } else y) } })))

/-- FRAME_RECEIPT counts a frame that cannot be corrected, and one whose check fails, and takes a verified frame: an acknowledgement
within the buffer's range drops the frames before it. A parcel frame that is the next expected is accepted, with the held frames that
follow it; one already accepted is counted and dropped; in selective mode one at most 63 ahead is held, and the missing ones are asked
for. -/
def Obligations.FrameReceipt : Prop :=
  ∀ (s : State) (p : Fin 30) (h : Fin 2) (w : Codeword), s.hasLink p.val h.val = true →
    let l := 2 * s.lowPort p.val + h.val
    (s.link l).phase = .up →
    (rsDecode w = none → ∃ t, Machine.exec (.frameReceipt p h w) s = .next t
        ∧ (t.link l).cnt.fecUe = satInc (s.link l).cnt.fecUe ∧ (t.link l).rxCount = (s.link l).rxCount + 1
        ∧ (t.link l).sq = (s.link l).sq ∧ { t with links := s.links } = s)
    ∧ (∀ syms : List Nat, rsDecode w = some (syms, []) →
      let m : FrameMsg := BitVec.ofNat 2560 (ofSymbols (syms.take 256))
      (frameOk m = false → ∃ t, Machine.exec (.frameReceipt p h w) s = .next t
        ∧ (t.link l).cnt.hcrc = satInc (s.link l).cnt.hcrc ∧ (t.link l).sq = (s.link l).sq)
      ∧ (∀ (f : TxFrame) (fs : List TxFrame), frameOk m = true → frameKind m = 0 → frameItem m = 0 →
        frameSeq m = (s.link l).sq.rxN → (s.link l).sq.rbuf = f :: fs → seqDist f.seq (frameAck m) ≤ fs.length + 1 →
        ∃ t, Machine.exec (.frameReceipt p h w) s = .next t
          ∧ (t.link l).sq.rbuf = (f :: fs).drop (seqDist f.seq (frameAck m))
          ∧ (t.link l).sq.rxN = (s.link l).sq.rxN ∧ (t.link l).rxCount = (s.link l).rxCount + 1)
      ∧ (frameOk m = true → (frameKind m = 1 ∨ frameKind m = 2) → frameItem m = 0 →
        (s.link l).takeAck (frameAck m) = s.link l →
        let f : TxFrame := ⟨frameSeq m, frameKind m, frameChan m, frameData m, false, s.now⟩
        let s1 := s.updLink l (fun x => x.countFrame false)
        let d := seqDist (s.link l).sq.rxN (frameSeq m)
        (d = 0 → Machine.exec (.frameReceipt p h w) s = .next ((s1.acceptFrame l f).drainWindow 64 l))
        ∧ (2048 ≤ d → Machine.exec (.frameReceipt p h w) s =
            .next (s1.updLink l (fun x => { x with cnt := { x.cnt with dup := satInc x.cnt.dup } })))
        ∧ (0 < d → d ≤ 63 → (s.link l).reg.mode = false → (∀ y ∈ (s.link l).sq.window, y.seq ≠ f.seq) →
            ∃ t, Machine.exec (.frameReceipt p h w) s = .next t ∧ (t.link l).sq.rxN = (s.link l).sq.rxN
              ∧ (t.link l).sq.window = (s.link l).sq.window ++ [f]
              ∧ (∀ i < d, (∀ y ∈ (s.link l).sq.window, y.seq ≠ (s.link l).sq.rxN + BitVec.ofNat 12 i) →
                  ∃ r ∈ (t.link l).sq.reqs, r.seq = (s.link l).sq.rxN + BitVec.ofNat 12 i)
              ∧ { t with links := s.links } = s)))

/-- A lane whose corrected symbols pass the threshold is marked degraded, and where the spare can serve it the far end is asked for it;
the transmitter mirrors the lane, the receiver switches over and says so, the transmitter follows; 65,536 treads after its start a
substitution is abandoned. -/
def Obligations.SpareSubstitution : Prop :=
  ∀ (s : State) (p : Fin 30) (lane : Fin 9), s.hasPort p.val = true →
    let l := s.laneLink p.val lane.val
    (((s.link l).phase = .up → (s.port p.val).laneDegr.getLsbD lane.val = false →
        256 * (s.link l).reg.laneThr.toNat <
          ((SMap.get [] (s.port p.val).laneWin lane.val).filter (fun t => (s.link l).rxCount < t + 1048576)).length →
        ∃ t, Machine.exec (.laneDegraded p lane) s = .next t ∧ (t.port p.val).laneDegr.getLsbD lane.val = true
          ∧ (s.spareServes p.val lane.val false = true → (s.port p.val).sub = none → (s.port p.val).subst = none →
              (t.port p.val).subst = some (lane.val, s.now)
              ∧ (t.link l).sq.mq.length = (s.link l).sq.mq.length + 1)))
    ∧ ((s.link l).phase = .up → s.spareServes p.val lane.val true = true → (s.port p.val).subTx = none →
      (s.port p.val).mirror = none →
      ∃ t, Machine.exec (.spareRequest p lane) s = .next t ∧ (t.port p.val).mirror = some (lane.val, s.now)
        ∧ (t.link l).sq.mq.length = (s.link l).sq.mq.length + 1)
    ∧ (∀ (slot t0 : Nat), (s.link l).phase = .up → (s.port p.val).subst = some (lane.val, t0) →
      ∃ t, Machine.exec (.mirrorNotice p lane slot) s = .next t ∧ (t.port p.val).sub = some lane.val
        ∧ (t.port p.val).subst = none ∧ (t.port p.val).spares = satInc (s.port p.val).spares
        ∧ (t.link l).sq.mq.length = (s.link l).sq.mq.length + 1)
    ∧ (∀ t0 : Nat, (s.port p.val).mirror = some (lane.val, t0) →
      ∃ t, Machine.exec (.switchNotice p lane) s = .next t ∧ (t.port p.val).subTx = some lane.val
        ∧ (t.port p.val).mirror = none ∧ (t.port p.val).spares = satInc (s.port p.val).spares)
    ∧ (∀ t0 : Nat, (s.port p.val).subst = some (lane.val, t0) → (s.port p.val).mirror = none →
      Claims.comes s (t0 + 65536) →
      Machine.exec (.spareSubstitutionTimeout p) s =
        .next ((s.waitUntil (t0 + 65536)).updPort p.val (fun x => { x with subst := none, mirror := none })))

/-- A lane that loses lock is failed; a burst of four uncorrectable frames in 16 slots, ordered sets of the far end and a write of
ARC_LINK_CFG.retrain start a fast retrain: the link stops sending frames, is paused, and counts it. Loss of signal, and a fast retrain
that takes 65,536 treads, start a full training. A write of the ARC_LINK_CFG of a link that is not there is ignored.
A training with a far end of another protocol version does not complete; one whose lanes all are healthy gives the link its full width,
the mode of its role and delay, and the resume TREAD. At that TREAD the link is up: a session that both ends kept sends its
buffer again, a fresh one starts at sequence number 0 with an empty buffer. -/
def Obligations.RetrainsAndTrainings : Prop :=
  (∀ (s : State) (p : Fin 30) (h : Fin 2), s.hasLink p.val h.val = true →
    let l := 2 * s.lowPort p.val + h.val
    let fast := fun (t : State) => (t.link l).phase = .fast ∧ (t.link l).kept = true ∧ (t.link l).pauseAt = some s.now
      ∧ (t.link l).cnt.retrain = satInc (s.link l).cnt.retrain ∧ (t.link l).nbr.state = 1
    ((s.link l).phase = .up → (s.link l).pauseAt = none →
      (∃ t, Machine.exec (.retrainOrderedSets p h) s = .next t ∧ fast t)
      ∧ (∀ lane : Fin 9, s.laneLink p.val lane.val = l → (s.port p.val).laneFail.getLsbD lane.val = false →
          s.hasPort p.val = true →
          ∃ t, Machine.exec (.laneLossOfLock p lane) s = .next t ∧ fast t
            ∧ (t.port p.val).laneFail.getLsbD lane.val = true)
      ∧ (4 ≤ ((s.link l).ueSlots.filter (fun t => (s.link l).rxCount < t + 16)).length →
          ∃ t, Machine.exec (.uncorrectableFrameBurst p h none) s = .next t ∧ fast t ∧ (t.link l).ueSlots = [])
      ∧ (s.lowPort p.val = p.val → s.linkInUse l = false →
          ∃ t, Machine.exec (.linkRetrainWrite p h 0x00100403) s = .next t ∧ fast t
            ∧ (t.link l).reg.rtoExtra = 0x10 ∧ (t.link l).reg.laneThr = 4 ∧ (t.link l).reg.autowidth = true))
    ∧ ((s.link l).phase ≠ .down → (s.link l).phase ≠ .full →
      ∃ t, Machine.exec (.lossOfSignal p h) s = .next t ∧ (t.link l).phase = .full ∧ (t.link l).kept = false
        ∧ (t.link l).cnt.train = satInc (s.link l).cnt.train)
    ∧ (∀ t0 : Nat, ((s.link l).phase = .fast ∨ (s.link l).phase = .waitResume) → (s.link l).pauseAt = some t0 →
      Claims.comes s (t0 + 65536) →
      ∃ t, Machine.exec (.fastRetrainTimeout p h) s = .next t ∧ t0 + 65536 ≤ t.now ∧ (t.link l).phase = .full
        ∧ (t.link l).kept = false ∧ (t.link l).cnt.train = satInc (s.link l).cnt.train))
  ∧ (∀ (s : State) (p : Fin 30) (h : Fin 2) (v : Word), (s.hasLink p.val h.val = false ∨ s.lowPort p.val ≠ p.val) →
    Machine.exec (.linkRetrainWrite p h v) s = .next s)
  ∧ (∀ (s : State) (p : Fin 30) (h : Fin 2), s.hasLink p.val h.val = true →
    let q := s.lowPort p.val
    let l := 2 * q + h.val
    (∀ r : TrainReport, ((s.link l).phase = .full ∨ (s.link l).phase = .fast) →
      (r.version ≠ 2 → Machine.exec (.trainingComplete p h r) s = .next (s.updLink l (fun x =>
        { x with nbr := { x.nbr with version := r.version, state := 4 } })))
      ∧ (let ok : BitVec 16 := match s.form q with | .bond => 0xFFFF | .whole => 0x00FF | .bif => 0x000F
         let w := fullWidth (s.form q)
         r.version = 2 → r.rxOk = ok → r.txOk = ok →
        ∃ t, Machine.exec (.trainingComplete p h r) s = .next t ∧ (t.link l).phase = .waitResume
          ∧ (t.link l).width = w ∧ (t.link l).resumeAt = r.resume.toNat
          ∧ (t.link l).reg.mode = replayMode (s.role q h.val) r.delay.toNat ∧ (t.link l).nbr.width = BitVec.ofNat 4 (min w 8)))
    ∧ (∀ farN : BitVec 12, (s.link l).phase = .waitResume → Claims.comes s (s.link l).resumeAt →
      ∃ t, Machine.exec (.linkResume p h farN) s = .next t ∧ (s.link l).resumeAt ≤ t.now ∧ (t.link l).phase = .up
        ∧ (t.link l).nbr.state = 2 ∧ (t.link l).slot = 0 ∧ (t.link l).bcnSent = false
        ∧ ((s.link l).kept = true → (s.link l).farFresh = false →
            (t.link l).sq.replayQ = (t.link l).sq.rbuf.map (fun f => f.seq) ∧ (t.link l).sq.window = []
            ∧ (t.link l).sq.rxN = (s.link l).sq.rxN ∧ (t.link l).reg.fresh = false)
        ∧ ((s.link l).kept = false ∨ (s.link l).farFresh = true → (t.link l).sq.txSeq = 0 ∧ (t.link l).sq.rxN = 0 ∧ (t.link l).sq.rbuf = []
            ∧ (t.link l).side.cCred = 2 ∧ (t.link l).side.dCred = 16 ∧ (t.link l).side.mCred = 4
            ∧ (t.link l).reg.fresh = true)))

/-! ### Descriptors -/

namespace Sys2Proof.Claims
open Sys2Proof.Machine

/-- A descriptor whose header is well formed is the next that the foyer starts, on a queue that can write its completion. -/
def starts (s : State) (h : DescHdr) : Prop :=
  s.mayStart h = true ∧ s.stewardBusy h = false ∧ h.badOp.filter opReserved = none ∧ descBad h = false
    ∧ (s.queue h.queue.val).idle = false

/-- The descriptor taken up: read by the foyer, and under way. -/
def taken (s : State) (h : DescHdr) : State :=
  s.updQueue h.queue.val (fun q => { q with read := q.read - 1, doing := q.doing + 1 })

/-- The completion entry of a descriptor in the ring of its queue: tag, status, opcode and detail. The rest of host memory is as before. -/
def entered (s t : State) (h : DescHdr) (op : Byte) (status : BitVec 16) (detail : Word64) : Prop :=
  let q := s.queue h.queue.val
  let a := q.cqb.toNat + q.cqW.toNat % 2 ^ q.cqLog.toNat * 128
  let host := fun (x : State) (i : Nat) => memGet x.hostMem x.hostUndef i
  (t.queue h.queue.val).cqW = q.cqW + 1
    ∧ (∀ i < 4, host t (a + 64 + i) = h.tag.extractLsb' (8 * i) 8)
    ∧ (∀ i < 2, host t (a + 68 + i) = status.extractLsb' (8 * i) 8) ∧ host t (a + 70) = op
    ∧ (∀ i < 8, host t (a + 80 + i) = detail.extractLsb' (8 * i) 8)
    ∧ ∀ i, i < a ∨ a + 128 ≤ i → host t i = host s i

/-- A descriptor has started and completed: it is read no more, nothing of it is under way, and its entry stands in the ring. -/
def completed (s t : State) (h : DescHdr) (op : Byte) (status : BitVec 16) (detail : Word64) : Prop :=
  entered s t h op status detail ∧ (t.queue h.queue.val).read = (s.queue h.queue.val).read - 1
    ∧ (t.queue h.queue.val).doing = (s.queue h.queue.val).doing
    ∧ ∀ n, n ≠ h.queue.val → t.queue n = s.queue n

/-- Part memory holds `bs` from `off` on, and elsewhere what it held. -/
def placed (s t : State) (off : Nat) (bs : List Byte) : Prop :=
  (∀ i (h : i < bs.length), t.readByte (off + i) = bs[i]) ∧ ∀ a, a < off ∨ off + bs.length ≤ a → t.readByte a = s.readByte a

end Sys2Proof.Claims

/-- NOP completes at once and changes nothing else; TOKEN puts its token in the token queue; CH_RESUME and a write of 1 to
DMA_CH_STAT.halt let a halted channel go on with its next descriptor. A descriptor with a reserved opcode, or a reserved value in its
header, is refused with status 1. -/
def Obligations.SimpleDescriptorsComplete : Prop :=
  ∀ (s : State) (hdr : DescHdr),
    (Claims.starts s hdr →
      (∃ t, Machine.exec (.nop hdr) s = .next t ∧ Claims.completed s t hdr 0x00 0 0
        ∧ { t with queues := s.queues, hostMem := s.hostMem, hostUndef := s.hostUndef, foyer := s.foyer } = s)
      ∧ (∀ (f : BitVec 16) (x : Flight) (ord : Word), f.toNat < 4096 → s.flight f.toNat = some x → s.actsFor hdr x.slice = true →
          s.ordFinal x.slice.toNat ord = false → s.stair.queue.length < 256 →
          ∃ t, Machine.exec (.tokenDescriptor hdr f ord) s = .next t ∧ Claims.completed s t hdr 0x11 0 0
            ∧ t.stair = ⟨s.stair.transit, s.stair.queue ++ [⟨false, f.toNat, ord, 0, x.slice, 0, false⟩]⟩ ∧ t.mem = s.mem)
      ∧ (∀ c : BitVec 8, s.mayUse hdr c = true →
          Machine.exec (.chResume hdr c) s = .next (((Claims.taken s hdr).resumeChan c.toNat).finish hdr 0x23 0 0 0))
      ∧ (∀ c : BitVec 8, s.mayUse hdr c = true → (s.chan c.toNat).halt = true → (s.chan c.toNat).act = none →
          (s.chan c.toNat).shd = none → (s.chan c.toNat).wait = [] →
          ∃ t, Machine.exec (.chResume hdr c) s = .next t ∧ Claims.completed s t hdr 0x23 0 0
            ∧ t.chan c.toNat = { s.chan c.toNat with halt := false } ∧ ∀ d, d ≠ c.toNat → t.chan d = s.chan d))
    ∧ (∀ (c : Fin 16) (v : Word), Machine.exec (.channelHaltWrite c v) s = .next (if v.getLsbD 31 then s.resumeChan c.val else s))
    ∧ (s.mayStart hdr = true → s.stewardBusy hdr = false → (s.queue hdr.queue.val).idle = false →
        (∀ o, hdr.badOp = some o → opReserved o = true →
          ∃ t, Machine.exec (.nop hdr) s = .next t ∧ Claims.completed s t hdr o 1 0)
        ∧ (hdr.badOp.filter opReserved = none → descBad hdr = true →
          ∃ t, Machine.exec (.nop hdr) s = .next t ∧ Claims.completed s t hdr 0x00 1 0))

/-- BOOK makes every flight of its book resident, or, where an entry fails a check, completes with status 0x000A and the entry and makes none
resident, with the record of cause 0x0118. EVICT without an ordinal removes a flight that does not run, with its tokens and heads; with one it waits for that ordinal's D,
and FLIGHT_EVICTION then removes it; a flight that runs, or is in the launch set, is busy and stays. RETIRE clears a slice with no resident flight and
disables its contexts, whose entries go; their shares and counters stay. -/
def Obligations.BookEvictAndRetire : Prop :=
  ∀ (s : State) (hdr : DescHdr),
    (Claims.starts s hdr →
      (∀ (slice : BitVec 8) (start : Word) (es : List BookEntry), es ≠ [] → es.length ≤ 4096 → es.any entryReserved = false →
        (s.sl slice.toNat).admitted = true → s.actsFor hdr slice = true → s.ahead slice.toNat start = true →
        (∀ u, (Claims.taken s hdr).resideAll slice start 0 es = .inl u →
          ∃ t, Machine.exec (.book hdr slice start es) s = .next t ∧ Claims.completed s t hdr 0x10 0 0
            ∧ (∀ e ∈ es, t.flight e.flight.toNat = some (bookFlight slice (s.sl slice.toNat).id.pos start e))
            ∧ (∀ f, (∀ e ∈ es, e.flight.toNat ≠ f) → t.flight f = s.flight f))
        ∧ (∀ (i n sec off : Nat), (Claims.taken s hdr).resideAll slice start 0 es = .inr (i, n, sec, off) →
          ∃ t, Machine.exec (.book hdr slice start es) s = .next t
            ∧ Claims.completed s t hdr 0x10 0x000A (BitVec.ofNat 64 i) ∧ t.flights = s.flights
            ∧ t.flt.seq = s.flt.seq + 1 ∧ t.flt.last.extractLsb' 0 16 = 0x0118))
      ∧ (∀ (f : BitVec 16) (x : Flight), f.toNat < 4096 → s.flight f.toNat = some x → s.actsFor hdr x.slice = true →
        (x.run = none → (s.sl x.slice.toNat).land.launch.contains f.toNat = false → ∀ ord : Word,
          ∃ t, Machine.exec (.evict hdr f 0xFF ord) s = .next t ∧ Claims.completed s t hdr 0x12 0 0 ∧ t.flight f.toNat = none
            ∧ (∀ g, g ≠ f.toNat → t.flight g = s.flight g) ∧ (∀ ph, ∀ y ∈ (t.hall ph).heads, y.flight ≠ some f.toNat)
            ∧ t.stair.queue = s.stair.queue.filter (fun y => y.branch || y.flight ≠ f.toNat))
        ∧ (x.run ≠ none → ∀ ord : Word, ∃ t, Machine.exec (.evict hdr f 0xFF ord) s = .next t
            ∧ Claims.completed s t hdr 0x12 0x000C (f.zeroExtend 64) ∧ t.flights = s.flights ∧ t.stair = s.stair)
        ∧ (∀ (slice : BitVec 8) (ord : Word), slice ≠ 0xFF → (s.sl slice.toNat).admitted = true → s.actsFor hdr slice = true →
          s.ordFinal slice.toNat ord = false →
          Machine.exec (.evict hdr f slice ord) s = .next ((Claims.taken s hdr).updSl slice.toNat (fun y =>
            { y with evicts := y.evicts ++ [{ ord, flight := f.toNat, hdr }] }))))
      ∧ (∀ slice : BitVec 8, hdr.queue.val = 0 → slice ≠ 0xFF → s.flightsOf slice.toNat = [] →
        (s.sl slice.toNat).evicts = [] → (s.sl slice.toNat).writes = [] →
        ∃ t, Machine.exec (.retire hdr slice) s = .next t ∧ Claims.completed s t hdr 0x21 0 0 ∧ t.sl slice.toNat = {}
          ∧ (∀ c, s.ctxSlice c = slice.toNat → let x := s.ctx c
              t.ctx c = { half := x.half, slice := x.slice, wheel := x.wheel, cmask := x.cmask, bayHi := x.bayHi, bayLo := x.bayLo
                          lagMax := x.lagMax, miss := x.miss, filter := x.filter })
          ∧ (∀ c, s.ctxSlice c ≠ slice.toNat → t.ctx c = s.ctx c)
          ∧ (∀ l, SMap.get (0, 0) (t.link l).anns slice.toNat = (0, 0)) ∧ (∀ u ∈ t.unseen, ∀ o, u.tok ≠ some (slice.toNat, o))
          ∧ (∀ k, k ≠ slice.toNat → t.sl k = s.sl k) ∧ t.mem = s.mem))
    ∧ (∀ (slice : BitVec 8) (f : BitVec 12) (s1 : State) (o : Word) (x : Flight), let k := slice.toNat
      let s2 := s1.updSl k (fun y => { y with evicts := [] })
      (s.sl k).evicts = [⟨o, f.toNat, hdr⟩] → s.atReport k o = some s1 → s.flight f.toNat = some x →
      (s.queue hdr.queue.val).err = false → (s.queue hdr.queue.val).idle = false →
      (x.run = none → (s.sl k).land.launch.contains f.toNat = false → ((s2.startBooks k).countTokens k).launchSet k = [] →
        ∃ t, Machine.exec (.flightEviction slice f) s = .next t ∧ Claims.entered s t hdr 0x12 0 0 ∧ t.flight f.toNat = none
          ∧ (∀ y ∈ t.stair.queue, y.branch = false → y.flight ≠ f.toNat)
          ∧ (t.sl k).evicts = [] ∧ (t.queue hdr.queue.val).doing = (s.queue hdr.queue.val).doing - 1)
      ∧ ((x.run ≠ none ∨ (s.sl k).land.launch.contains f.toNat = true
          ∨ (((s2.startBooks k).countTokens k).launchSet k).contains f.toNat = true) →
        ∃ t, Machine.exec (.flightEviction slice f) s = .next t ∧ Claims.entered s t hdr 0x12 0x000C (f.zeroExtend 64)
          ∧ t.flights = s.flights ∧ t.stair = s.stair ∧ (t.sl k).evicts = []))

/-- ADMIT on the operator queue, when every check passes, admits the slice: the master sets its epoch to TREAD plus the lead and sends the
epoch parcel, and an epoch parcel kept for the slice is dropped there and counted. A check that fails gives status 0x000B with its number and admits nothing. On another queue it is refused. -/
def Obligations.AdmitChecksAndAdmits : Prop :=
  ∀ (s : State) (hdr : DescHdr) (len : Word) (r : AdmitRec), Claims.starts s hdr → s.sec.walkAll = false → s.sec.walkWait = false →
    let k := r.slice.toNat
    (hdr.queue.val = 0 → s.admitFail len r = none →
      ∃ t, Machine.exec (.admitDesc hdr len r) s = .next t ∧ Claims.completed s t hdr 0x20 0 0 ∧ (t.sl k).admitted = true
        ∧ (∀ j, j ≠ k → t.sl j = s.sl j) ∧ t.mem = s.mem
        ∧ (t.sl k).id = { recId r with pos := (positionOf s.cfg (recId r) s.cfg.chip.toNat).getD 0 }
        ∧ (masterChip (recId r) = s.cfg.chip.toNat →
            let e := s.clk.tread + r.lead.zeroExtend 64
            (t.sl k).epoch = e ∧ (t.sl k).epochSet = true ∧ t.relays = s.relays ++ [.epoch k e 0]
              ∧ ∀ x, (s.sl k).kept = some x → (t.link x.link).cnt.drop = satInc (s.link x.link).cnt.drop)
        ∧ (masterChip (recId r) ≠ s.cfg.chip.toNat → (s.sl k).kept = none → (t.sl k).epochSet = false ∧ t.relays = s.relays))
    ∧ (∀ n : Nat, hdr.queue.val = 0 → s.admitFail len r = some n →
      ∃ t, Machine.exec (.admitDesc hdr len r) s = .next t ∧ Claims.completed s t hdr 0x20 0x000B (BitVec.ofNat 64 n)
        ∧ ∀ j, (t.sl j).admitted = (s.sl j).admitted)
    ∧ (hdr.queue.val ≠ 0 →
      ∃ t, Machine.exec (.admitDesc hdr len r) s = .next t ∧ Claims.completed s t hdr 0x20 1 0
        ∧ ∀ j, (t.sl j).admitted = (s.sl j).admitted)

/-- A transfer on a free channel starts at once and moves nothing yet; the part's bytes that a DMA_IN will write are free values for scheduled
operations from then on. DMA_TRANSFER_COMPLETE, when the schedule leaves a frame and a tread free, moves the bytes, DMA_IN to part memory,
DMA_OUT to host memory, and nothing else changes there but the completion entry; it raises the token, or shows the bytes where there is none,
writes the entry, and frees the channel. A read that fails is made again as often as DMA_CH_CFG said when the transfer started;
then the channel halts with status 6 and the rest of its descriptors wait. A transfer with a gate starts only after its gate landing has
ended, and a commit-only one whose gate landing was aborted ends with status 8. -/
def Obligations.TransfersMoveTheirBytes : Prop :=
  ∀ s : State,
    (∀ (hdr : DescHdr) (d : DmaDesc), Claims.starts s hdr → s.xferRefused hdr d = false → s.mayUse hdr d.chan = true →
      let c := d.chan.toNat
      (s.chan c).act = none → (s.chan c).halt = false → d.gateSlice = 0xFF → d.crcMode = 0 → (∀ a, s.dmaAddr a = a) →
      (∀ data : List Byte, s.xferBad hdr d true = none →
        ∃ t j, Machine.exec (.dmaIn hdr d data) s = .next t ∧ (t.chan c).act = some j ∧ j.started = true ∧ j.status = 0 ∧ j.op = 1
          ∧ j.tries = (s.chan c).retry ∧ j.d = d ∧ j.data = data ∧ t.mem = s.mem ∧ t.hostMem = s.hostMem
          ∧ (∀ i < d.len.toNat, ∃ tag, t.schedByte (d.off.toNat + i) = Config.freeByte tag (d.off.toNat + i)))
      ∧ (∀ ups : List Upset, s.xferBad hdr d false = none →
        ∃ t j, Machine.exec (.dmaOut hdr d ups) s = .next t ∧ (t.chan c).act = some j ∧ j.started = true ∧ j.status = 0 ∧ j.op = 2
          ∧ j.d = d ∧ j.ups = ups ∧ t.mem = s.mem ∧ t.hostMem = s.hostMem ∧ t.unseen = s.unseen))
    ∧ (∀ (c : Fin 16) (j : DmaJob), (s.chan c.val).act = some j →
      (j.started = true → (s.chan c.val).shd = none → (s.chan c.val).wait = [] → (s.queue j.hdr.queue.val).err = false →
        (s.queue j.hdr.queue.val).idle = false →
        (moved j.status = false →
          ∃ t, Machine.exec (.dmaTransferComplete c) s = .next t ∧ Claims.entered s t j.hdr j.op j.status j.detail
            ∧ (t.chan c.val).act = none ∧ (t.chan c.val).status = j.status ∧ t.stair = s.stair
            ∧ (t.queue j.hdr.queue.val).doing = (s.queue j.hdr.queue.val).doing - 1 ∧ t.mem = s.mem)
        ∧ (∀ s0, j.status = 0 → j.d.crcMode = 0 → (∀ a, s.dmaAddr a = a) →
          s.xferBad j.hdr j.d (j.op = 1) = none → s.unschedXfer j.d.off.toNat j.d.len.toNat (j.op = 1) = some s0 →
          (j.op = 1 → j.data.length = j.d.len.toNat →
            ∃ t, Machine.exec (.dmaTransferComplete c) s = .next t ∧ Claims.placed s t j.d.off.toNat j.data
              ∧ Claims.entered s t j.hdr 0x01 0 (j.d.len.zeroExtend 64)
              ∧ (t.chan c.val).act = none ∧ (t.chan c.val).status = 0
              ∧ (t.queue j.hdr.queue.val).doing = (s.queue j.hdr.queue.val).doing - 1
              ∧ t.stair.transit.length = s.stair.transit.length + (if j.d.tokEn then 1 else 0)
              ∧ (if j.d.tokEn then t.unseen = s.unseen else ∀ u ∈ t.unseen, u.tag ≠ j.hid))
          ∧ (j.op = 2 → j.ups = [] → s.upsets = [] →
            let q := s.queue j.hdr.queue.val
            let ring := q.cqb.toNat + q.cqW.toNat % 2 ^ q.cqLog.toNat * 128
            (ring + 128 ≤ j.d.addr.toNat ∨ j.d.addr.toNat + j.d.len.toNat ≤ ring) →
            ∃ t, Machine.exec (.dmaTransferComplete c) s = .next t ∧ (t.chan c.val).act = none
              ∧ (∀ i < j.d.len.toNat, memGet t.hostMem t.hostUndef (j.d.addr.toNat + i) = s.readByte (j.d.off.toNat + i))
              ∧ (∀ a, (a < j.d.addr.toNat ∨ j.d.addr.toNat + j.d.len.toNat ≤ a) → (a < ring ∨ ring + 128 ≤ a) →
                  memGet t.hostMem t.hostUndef a = memGet s.hostMem s.hostUndef a)
              ∧ (t.queue j.hdr.queue.val).cqW = q.cqW + 1 ∧ (t.queue j.hdr.queue.val).doing = q.doing - 1
              ∧ t.stair.transit.length = s.stair.transit.length + (if j.d.tokEn then 1 else 0)
              ∧ ∀ a, t.readByte a = s.readByte a)))
      ∧ (∀ addr : Word64, j.started = true → j.op = 1 → moved j.status = true →
        (j.retries.toNat < j.tries.toNat →
          Machine.exec (.dmaReadFailure c addr) s =
            .next (s.updChan c.val (fun x => { x with act := some { j with retries := j.retries + 1 } })))
        ∧ (j.tries.toNat ≤ j.retries.toNat → (s.queue j.hdr.queue.val).err = false →
          (s.queue j.hdr.queue.val).idle = false →
          ∃ t, Machine.exec (.dmaReadFailure c addr) s = .next t ∧ Claims.entered s t j.hdr 0x01 0x0006 addr
            ∧ (t.chan c.val).act = none ∧ (t.chan c.val).halt = true ∧ (t.chan c.val).status = 6
            ∧ (t.chan c.val).shd = (s.chan c.val).shd ∧ (t.chan c.val).wait = (s.chan c.val).wait))
      ∧ (s.gateOpen j.d = false → s.foyer.stor = [] → Machine.exec (.dmaGateOpen c) s = .next s)
      ∧ (j.started = false → (s.chan c.val).halt = false → s.gateOpen j.d = true → s.foyer.stor = [] →
        (∀ o, s.gateAbort j.d = some o →
          Machine.exec (.dmaGateOpen c) s = .next (s.updChan c.val (fun x => { x with
            act := some { j with gated := false, started := true, tries := x.retry, status := 8, detail := o.zeroExtend 64 } })))
        ∧ (s.gateAbort j.d = none → s.xferBad j.hdr j.d (j.op = 1) = none →
          ∃ t, Machine.exec (.dmaGateOpen c) s = .next t ∧ t.mem = s.mem ∧ t.hostMem = s.hostMem
            ∧ ∃ j1, (t.chan c.val).act = some j1 ∧ j1.started = true ∧ j1.gated = false ∧ j1.status = j.status ∧ j1.data = j.data)))

/-- A storage transfer on a storage port queues one class D parcel for each 8,176 bytes; STOR_RD sends requests, STOR_WR the data. Every answer
but the last leaves one fewer to come, a read's data going to part memory once their last line finds its frame and places; the last one ends the transfer with its completion entry. -/
def Obligations.StorageTransfersAreAnswered : Prop :=
  ∀ s : State,
    (∀ (hdr : DescHdr) (d : DmaDesc), Claims.starts s hdr → s.xferRefused hdr d = false → s.hasPort d.chan.toNat = true →
      s.role d.chan.toNat 0 = 0x20 → d.gateSlice = 0xFF → s.foyer.stor = [] → d.crcMode = 0 →
      let l := 2 * d.chan.toNat
      let n := (d.len.toNat + 8175) / 8176
      (s.xferBad hdr d true = none →
        ∃ t j, Machine.exec (.storRd hdr d) s = .next t ∧ t.foyer.stor = [j] ∧ j.gated = false ∧ j.left = n ∧ j.op = 3
          ∧ (t.link l).sq.dq.length = (s.link l).sq.dq.length + n ∧ t.foyer.storSeq = s.foyer.storSeq + 1 ∧ t.mem = s.mem)
      ∧ (s.xferBad hdr d false = none → s.upsets = [] →
        ∃ t j, Machine.exec (.storWr hdr d []) s = .next t ∧ t.foyer.stor = [j] ∧ j.gated = false ∧ j.left = n ∧ j.op = 4
          ∧ (t.link l).sq.dq.length = (s.link l).sq.dq.length + n ∧ t.foyer.storSeq = s.foyer.storSeq + 1
          ∧ ∀ a, t.readByte a = s.readByte a))
    ∧ (∀ (p : Fin 30) (chip : BitVec 16) (x : StorageParcel) (j : StorJob), s.hasPort p.val = true → s.mine p.val x = true →
      s.inbox = [] → s.foyer.stor = [j] → j.gated = false → j.d.chan.toNat = p.val → j.hdr.tag = x.tag → x.status = 0 →
      (2 ≤ j.left →
        (j.op = 3 → (∀ a, s.dmaAddr a = a) → s.xferBad j.hdr j.d true = none →
          let at_ := (localOff x.addr + 2 ^ 48 - localOff j.d.addr) % 2 ^ 48
          at_ + x.data.length ≤ j.d.len.toNat → 0 < x.data.length →
          (s.unschedXfer (j.d.off.toNat + at_) x.data.length true).isSome = true →
          ∃ t, Machine.exec (.storageReadResponse p chip x) s = .next t ∧ Claims.placed s t (j.d.off.toNat + at_) x.data
            ∧ t.foyer.stor = [{ j with left := j.left - 1 }])
        ∧ (j.op = 4 →
          Machine.exec (.storageWriteAcknowledgement p chip x) s =
            .next { s with foyer := { s.foyer with stor := [{ j with left := j.left - 1 }] } }))
      ∧ (j.left = 1 → j.op = 3 → j.status = 0 → j.d.crcMode = 0 → (∀ a, s.dmaAddr a = a) →
          s.xferBad j.hdr j.d true = none → (s.queue j.hdr.queue.val).err = false →
          (s.queue j.hdr.queue.val).idle = false →
          let at_ := (localOff x.addr + 2 ^ 48 - localOff j.d.addr) % 2 ^ 48
          at_ + x.data.length ≤ j.d.len.toNat → 0 < x.data.length →
          (s.unschedXfer (j.d.off.toNat + at_) x.data.length true).isSome = true →
          ∃ t, Machine.exec (.storageReadResponse p chip x) s = .next t ∧ Claims.placed s t (j.d.off.toNat + at_) x.data
            ∧ t.foyer.stor = [] ∧ Claims.entered s t j.hdr 0x03 0 (j.d.len.zeroExtend 64))
      ∧ (j.left = 1 → j.op = 4 → (s.queue j.hdr.queue.val).err = false → (s.queue j.hdr.queue.val).idle = false →
          ∃ t, Machine.exec (.storageWriteAcknowledgement p chip x) s = .next t ∧ t.foyer.stor = []
            ∧ Claims.entered s t j.hdr 0x04 j.status j.detail))

/-- FOYER_POLL reads the doorbell words: each enabled queue whose word has changed reads on to its new tail, as far as completion entries are free,
and the next poll comes FOY_POLL.interval × 400 treads later. A queue enabled starts with its indices at zero, one disabled has its error cleared;
QUEUE_IDLE follows when nothing of it is left; HOST_LINK_RESET puts every queue and channel at its reset value. -/
def Obligations.PollsQueuesAndHostResets : Prop :=
  ∀ s : State,
    (∀ words : List Word64, words.length = 16 → (∃ n < 16, (s.queue n).en = true) → Claims.comes s s.foyer.pollAt →
      (∀ n < 16, (s.queue n).en = false ∨ (s.queue n).badWord (words.getD n 0) = false) →
      ∃ t, Machine.exec (.foyerPoll words) s = .next t ∧ s.foyer.pollAt ≤ t.now
        ∧ t.foyer.pollAt = t.now + 400 * s.foyer.poll.toNat ∧ t.mem = s.mem ∧ t.hostMem = s.hostMem
        ∧ (∀ n < 16, let q := s.queue n; let w := words.getD n 0
            ((q.en = false ∨ q.err = true ∨ w = q.lastDb) → t.queue n = q)
            ∧ (q.en = true → q.err = false → w ≠ q.lastDb →
              let q1 := { q with cqHead := w.extractLsb' 16 16, lastDb := w }
              let m := min (w.extractLsb' 0 16 - q.sqHead).toNat (q1.free - 8 - (q.read + q.doing))
              t.queue n = { q1 with sqHead := q.sqHead + BitVec.ofNat 16 m, read := q.read + m })))
    ∧ (∀ (q : Fin 16) (v : Word),
      ((s.queue q.val).en = false → (s.queue q.val).idle = true → v.getLsbD 31 = true →
        ∃ t, Machine.exec (.queueEnableWrite q v) s = .next t ∧ { t with queues := s.queues } = s
          ∧ (∀ n, n ≠ q.val → t.queue n = s.queue n) ∧ (t.queue q.val).en = true ∧ (t.queue q.val).idle = false
          ∧ (t.queue q.val).sqHead = 0 ∧ (t.queue q.val).cqHead = 0 ∧ (t.queue q.val).cqW = 0
          ∧ (t.queue q.val).read = 0 ∧ (t.queue q.val).slice = v.extractLsb' 0 8)
      ∧ ((s.queue q.val).en = true → v.getLsbD 31 = false → v.getLsbD 30 = (s.queue q.val).cqRo →
        v.extractLsb' 24 4 = (s.queue q.val).sqLog → v.extractLsb' 20 4 = (s.queue q.val).cqLog →
        v.extractLsb' 0 8 = (s.queue q.val).slice →
        Machine.exec (.queueEnableWrite q v) s = .next (s.updQueue q.val (fun x => { x with en := false, err := false })))
      ∧ ((s.queue q.val).en = false → (s.queue q.val).read = 0 → (s.queue q.val).doing = 0 →
        Machine.exec (.queueIdle q) s = .next (s.updQueue q.val (fun x => { x with idle := true }))))
    ∧ (∀ why : HostReset,
      ∃ t, Machine.exec (.hostLinkReset why) s = .next t ∧ t.chans = [] ∧ t.foyer.linkStat = 0 ∧ t.foyer.poll = 4
        ∧ t.foyer.dbBase = 0 ∧ t.foyer.stor = [] ∧ t.foyer.msix = s.foyer.msix
        ∧ (∀ n < 16, (t.queue n).en = false ∧ (t.queue n).idle = true ∧ (t.queue n).err = false ∧ (t.queue n).read = 0
            ∧ (t.queue n).doing = 0 ∧ (t.queue n).chm = (if n = 0 then 0xFFFF else 0) ∧ (t.queue n).tenLo = (s.queue n).tenLo)
        ∧ (∀ u ∈ t.unseen, u ∈ s.unseen)
        ∧ (s.flying = [] → { t with queues := s.queues, chans := s.chans, foyer := s.foyer, unseen := s.unseen } = s))

/-! ### Register writes -/

/-- A write of a register takes effect under the register's own rule, one that breaks it writes a fault record of cause 0x0117 and has
no other effect, and one of a hole or off a word is ignored. So for HAL_VMAP, HAL_MODE and HAL_PACE of a quiet hall, a commit region that is not
enabled, and the idle-landing registers of a slice that is not admitted; HAL_VMAP of a hall that runs is refused.
A write of ARC_GLOBAL that leaves linkmap and mesh2d alone sets the beacon interval, and one that changes them while a slice is admitted
is refused; ARC_PORT_CTL sets the spare enable; a context that is written disabled keeps its share without announcing it. REG_WRITE at once
writes and completes; one with an ordinal is made at that ordinal's D. -/
def Obligations.RegisterWrites : Prop :=
  (∀ (s : State) (v : Word),
    (∀ (off : Word) (r : RegId), off.toNat < 0x3F00000 → s.regAt off.toNat = some r →
      (∀ t, s.writeReg r v = some t → Machine.exec (.setUpRegisterWrite off v) s = .next t)
      ∧ (s.writeReg r v = none → Machine.exec (.setUpRegisterWrite off v) s = .next (s.raise { cause := 0x0117, detail := v ++ off })))
    ∧ (∀ off : Word, s.regAt off.toNat = none → ¬ (0x3F00000 ≤ off.toNat ∧ off.toNat < 0x3F00100) →
      Machine.exec (.setUpRegisterWrite off v) s = .next s)
    ∧ (∀ ph : Fin 64,
      (s.hallQuiet ph.val = true →
        Machine.exec (.halVmapWrite ph v) s =
          .next (s.updHall ph.val (fun h => { h with reg := { h.reg with vmap := v &&& 0x80FF003F } }))
        ∧ Machine.exec (.halModeWrite ph v) s =
          .next (s.updHall ph.val (fun h => { h with reg := { h.reg with mode := v &&& 1 } }))
        ∧ (s.cfg.stepping = .b0 → s.hallShared ph.val = false →
          Machine.exec (.halPaceWrite ph v) s =
            .next (s.updHall ph.val (fun h => { h with reg := { h.reg with asA0 := v.getLsbD 31 } }))))
      ∧ ((s.hall ph.val).st = .running →
        Machine.exec (.halVmapWrite ph v) s =
          .next (s.raise { cause := 0x0117, detail := v ++ BitVec.ofNat 32 (0x200008 + 0x1000 * ph.val) })))
    ∧ (∀ (c : Fin 14) (k : Fin 8), s.hasStack c.val = true → (SMap.get {} (s.mc c.val).cregs k.val).en = false →
      Machine.exec (.memCregWrite c k false v) s =
        .next (s.updCreg c.val k.val (fun r => { r with en := v.getLsbD 31, base := v.extractLsb' 0 27 }))
      ∧ (1 ≤ (v.extractLsb' 0 16).toNat → (v.extractLsb' 0 16).toNat ≤ 20480 →
        Machine.exec (.memCregWrite c k true v) s = .next (s.updCreg c.val k.val (fun r => { r with len := v.extractLsb' 0 16 }))))
    ∧ (∀ k : BitVec 8, k ≠ 0xFF → (s.sl k.toNat).admitted = false →
      (256 ≤ (v.extractLsb' 0 17).toNat → (v.extractLsb' 0 17).toNat ≤ 65536 →
        Machine.exec (.timIdleWrite k false v) s =
          .next { s with tim := { s.tim with idleGap := SMap.set 0x4000#17 s.tim.idleGap k.toNat (v.extractLsb' 0 17) } })
      ∧ (63 ≤ (v.extractLsb' 16 11).toNat → (v.extractLsb' 0 12).toNat ≤ (v.extractLsb' 16 11).toNat + 1 →
        Machine.exec (.timIdleWrite k true v) s =
          .next { s with tim := { s.tim with idleW := SMap.set 0x00FF0080#32 s.tim.idleW k.toNat (v &&& 0x07FF0FFF) } })))
  ∧ (∀ (s : State) (v : Word),
    (v.extractLsb' 0 2 = s.linkmap → v.getLsbD 2 = s.mesh2d →
      v.extractLsb' 16 8 ≠ 0 → Machine.exec (.arcGlobalWrite v) s = .next { s with bcnInt := v.extractLsb' 16 8 })
    ∧ (s.admitted ≠ [] → v.getLsbD 2 ≠ s.mesh2d →
      Machine.exec (.arcGlobalWrite v) s = .next (s.raise { cause := 0x0117, detail := v ++ 0x300000#32 }))
    ∧ (∀ p : Fin 30, s.hasPort p.val = true → s.admitted = [] → v.getLsbD 0 = (s.port p.val).en →
      Machine.exec (.arcPortCtlWrite p v) s = .next (s.updPort p.val (fun x => { x with sparePend := some (v.getLsbD 1) })))
    ∧ (∀ (p : Fin 30) (n : Fin 64), s.hasPort p.val = true → s.lowPort p.val = p.val →
      let c := 64 * p.val + n.val
      let k := v.extractLsb' 16 8
      v.getLsbD 31 = false → k ≠ 0xFF → (s.sl k.toNat).admitted = true → s.hasFlights k.toNat = false →
      (s.ctx c).en = false →
      Machine.exec (.arcCtxWrite p n false v) s = .next (s.updCtx c (fun x =>
        { x with en := false, half := v.getLsbD 30, slice := k, wheel := v.extractLsb' 0 16 })))
    ∧ (∀ (hdr : DescHdr) (off ord : Word), Claims.starts s hdr → hdr.queue.val = 0 → off.toNat % 4 = 0 →
      (∀ (r : RegId) (u : State), s.regAt off.toNat = some r → (Claims.taken s hdr).writeReg r v = some u →
        Machine.exec (.regWriteDescriptor hdr off v ord 0xFF) s = .next (u.finish hdr 0x22 0 0 0))
      ∧ (∀ slice : BitVec 8, slice ≠ 0xFF → (s.sl slice.toNat).admitted = true → s.ordFinal slice.toNat ord = false →
        Machine.exec (.regWriteDescriptor hdr off v ord slice) s = .next ((Claims.taken s hdr).updSl slice.toNat (fun y =>
          { y with writes := y.writes ++ [{ ord, off, value := v, hdr }] }))))
    ∧ (∀ (slice : BitVec 8) (hdr : DescHdr) (off ord : Word) (s1 u : State) (r : RegId),
      (s.sl slice.toNat).writes = [⟨ord, off, v, hdr⟩] → s.atReport slice.toNat ord = some s1 → s.regAt off.toNat = some r →
      (s1.updSl slice.toNat (fun y => { y with writes := [] })).writeReg r v = some u →
      Machine.exec (.regWriteAtOrdinal slice) s = .next (u.finish hdr 0x22 0 0 ord)))

/-! ### Save, restore and restarts -/

/-- SAVE on the master asks for a quiesce landing from FLT_SAVE_ORD on; RESUME lets a saved slice be held for its release; RESTORE of a slice
that is not admitted is refused, and otherwise the state that the save area holds is loaded with the state epoch one on. While a save or
restore is under way the register takes no write. -/
def Obligations.SaveResumeAndRestore : Prop :=
  ∀ (s : State) (slice : BitVec 8), let k := slice.toNat
    (s.flt.status ≠ 2 → s.flt.status ≠ 4 →
      ((s.sl k).admitted = true → s.isMaster k = true →
        Machine.exec (.save slice) s = .next ({ s with flt := { s.flt with op := 1, slice, status := 1 } }.updSl k (fun x =>
          { x with err := { x.err with saveReq := some s.flt.saveOrd } })))
      ∧ ((s.sl k).phase = .saved → s.isMaster k = true →
        let u := { s with flt := { s.flt with op := 2, slice } }.updSl k (fun x =>
          { x with phase := .held, land := { x.land with since := s.now } })
        ((s.sl k).reports = [] → Machine.exec (.resume slice) s = .next u)
        ∧ (∀ (r : HoldReport) (rs : List HoldReport), (s.sl k).reports = r :: rs →
            Machine.exec (.resume slice) s = .next (u.collectHold k r)))
      ∧ ((s.sl k).admitted = false →
        Machine.exec (.restore slice) s = .next { s with flt := { s.flt with op := 3, slice, status := 5 } })
      ∧ ((s.sl k).admitted = true →
        ∃ t, Machine.exec (.restore slice) s = .next t
          ∧ match s.readPart with
            | none => t = { s with flt := { s.flt with op := 3, slice, status := 5 } }
            | some p =>
              let u := { s with flt := { s.flt with op := 3, slice, status := 0 } }.loadSave k p
              (u.sl k).err.epoch = p.epoch + 1 ∧ (u.sl k).offset = s.flt.resumeOfs ∧ (u.sl k).land.ord = p.land.ord
                ∧ (((u.sliceTread k - (p.land.a + BitVec.ofNat 64 p.land.w)).toInt < 0 ∧ t.flt.status = 5 ∧ (t.sl k).phase = .failed)
                  ∨ (0 ≤ (u.sliceTread k - (p.land.a + BitVec.ofNat 64 p.land.w)).toInt
                      ∧ t = (u.updSl k (fun x => { x with phase := .held, land := { x.land with since := u.now } })).sendHold k))))
    ∧ (s.flt.status = 2 ∨ s.flt.status = 4 →
      Machine.exec (.save slice) s = .next (s.raise { cause := 0x0117, detail := BitVec.ofNat 32 (2 ^ 30 + k) ++ 0x0006000C#32 }))

/-- An expired watchdog or an uncorrectable error of the steward's memory restarts the four cores: ATR_WDOG counts and names the cause, ATR_ALERT
says so, a pending presence command is cancelled; a third restart within 10^9 counts of TB3 leaves the steward stopped in ROM recovery. -/
def Obligations.RestartsOfTheSteward : Prop :=
  ∀ (s : State) (core : Fin 4), s.sec.boot = 2 →
    let recent := s.sec.restartAt.filter (fun t => s.clk.tb3.toNat < t + 1000000000)
    ∀ x ∈ [(Instr.watchdogExpiry core, (1 : BitVec 2)), (.stewardMemoryUncorrectable, 2)],
      ∃ t, Machine.exec x.1 s = .next t ∧ t.sec.restarts = satInc s.sec.restarts ∧ t.sec.lastCause = x.2
        ∧ t.sec.alert = s.sec.alert ||| 0x10 ∧ t.sec.presence = 0 ∧ t.flt.seq = s.flt.seq + 1
        ∧ (recent.length < 2 → t.sec.boot = 2 ∧ t.sec.stopped = false)
        ∧ (2 ≤ recent.length → t.sec.boot = 1 ∧ t.sec.stopped = true)
        ∧ (∀ k ∈ s.admitted, (t.sl k).err.wdog = true ∧ (t.sl k).err.cls.getLsbD 6 = true)
        ∧ (s.flt.status = 2 ∨ s.flt.status = 4 → t.flt.status = 5) ∧ t.halls = s.halls ∧ t.queues = s.queues

/-! ### Power -/

/-- A supply that crosses its thresholds changes range, and with 54 V in range, main asked for and boot at its end main power rises; MAIN_ON completes
it. Loss of 54 V, a fault of the fixed-ratio stage, and a 0 written to PWR_CTL.main with no slice admitted make a main-power stop: the
cause is recorded and the main domain loses its state. With neither supply the part is in part reset. -/
def Obligations.SuppliesAndMainPower : Prop :=
  ∀ s : State,
    (∀ (mv : Nat) (in54 : Bool), inRange 47000 45000 62000 61000 s.pwr.in54 s.pwr.v54 mv = in54 →
      let p := { s.pwr with in54, v54 := mv }
      (s.pwr.state = 1 → in54 = true → s.pwr.main = true → s.sec.boot = 2 → s.sec.noRecord = false → s.clk.running = true →
        Machine.exec (.supplyThresholdCrossing .v54 mv) s = .next { s with pwr := { p with state := 2 } })
      ∧ (s.pwr.state = 3 → s.pwr.in54 = in54 → (in54 = true ∨ s.pwr.in12 = true) →
        Machine.exec (.supplyThresholdCrossing .v54 mv) s = .next { s with pwr := p })
      ∧ (s.pwr.state = 3 → s.pwr.in54 = true → in54 = false → s.pwr.in12 = true →
        ∃ t, Machine.exec (.supplyThresholdCrossing .v54 mv) s = .next t ∧ t.pwr.state = 4 ∧ t.pwr.in54 = false
          ∧ t.pwr.evtCause = (if mv < 45000 then 1 else 2) ∧ t.pwr.evtCount = satInc s.pwr.evtCount ∧ t.slices = [] ∧ t.flights = []
          ∧ t.sec.alert = s.sec.alert ||| 1)
      ∧ (s.pwr.in54 = true → in54 = false → s.pwr.in12 = false →
        ∃ t, Machine.exec (.supplyThresholdCrossing .v54 mv) s = .next t ∧ t.pwr.state = 1 ∧ t.sec.boot = 0 ∧ t.queues = State.reset.queues
          ∧ t.sec.flash = s.sec.flash ∧ t.slices = []))
    ∧ (∀ mv : Nat, s.pwr.state = 3 → s.pwr.in54 = true →
      Machine.exec (.supplyThresholdCrossing .v12 mv) s = .next { s with pwr := { s.pwr with
        in12 := inRange 11000 10500 13500 13200 s.pwr.in12 s.pwr.v12 mv, v12 := mv } })
    ∧ (s.pwr.state = 2 → ∃ t, Machine.exec .mainOn s = .next t ∧ t.pwr.state = 3 ∧ t.flt.waiting = [] ∧ t.sec.healthSet = true
        ∧ (∀ l < 60, s.mayTrain (l / 2) (l % 2) = true → (t.link l).phase = .full))
    ∧ (∀ (c : Instr) (cause : BitVec 4), (c = .fixedRatioStageFault ∧ cause = 5)
        ∨ ((∃ v : Word, v.getLsbD 0 = false ∧ c = .pwrCtlMainWrite v) ∧ cause = 4 ∧ s.admitted = []) →
      s.pwr.state = 3 →
      ∃ t, Machine.exec c s = .next t ∧ t.pwr.state = 4 ∧ t.pwr.evtCause = cause ∧ t.pwr.evtCount = satInc s.pwr.evtCount
        ∧ t.slices = [] ∧ t.flights = [] ∧ t.links = [] ∧ t.ports = [] ∧ t.ctxs = [] ∧ t.bays = [] ∧ t.mcs = [] ∧ t.relays = []
        ∧ t.stair = {} ∧ t.linkmap = s.linkmap ∧ t.sec.alert = s.sec.alert ||| 1 ∧ t.cfg = s.cfg ∧ t.clk = s.clk
        ∧ (∀ ph < 64, (t.hall ph).st = .absent ∨ (t.hall ph).st = .asleep ∨ (t.hall ph).st = .withdrawn)
        ∧ (∀ a < hbmBytes s.cfg.grade, ∃ tag, t.readByte a = Config.freeByte tag a))
    ∧ (∀ v : Word, v.getLsbD 0 = false → s.admitted ≠ [] →
      Machine.exec (.pwrCtlMainWrite v) s = .next (s.raise { cause := 0x0117, detail := v ++ 0x30004#32 }))
    ∧ (∀ v : Word, v.getLsbD 0 = true → s.pwr.state = 3 ∨ s.pwr.in54 = false →
      Machine.exec (.pwrCtlMainWrite v) s = .next { s with pwr := { s.pwr with main := true } })

/-- The pace loop takes a sample no sooner than 64 treads after the last. It raises vcode by 1, to 160 at most, when the least count is less than 2 above the target, and lowers it by 1 after 16 samples in
a row 6 or more above it while no boost is in force. BOOST_APPLY raises vcode by 10. A hall with 256 samples short of its target at vcode
160, or whose regulator fails, is withdrawn at once, its heads dropped and its stores undefined. POWER_WINDOW moves the limiter's window on. -/
def Obligations.PaceBoostAndRegulators : Prop :=
  ∀ (s : State) (ph : Fin 64),
    let h := s.hall ph.val
    let n := SMap.get 0 s.cfg.target (ph.val * 4 + h.reg.pace.toNat)
    (∀ (counts : List Nat) (c : Nat), s.cMin ph.val counts = some c → h.powered = true → s.mainOn = true → h.pwr.vcode.toNat ≤ 160 →
      Claims.comes s h.pwr.sampleAt →
      ∃ t, Machine.exec (.paceLoopSample ph counts) s = .next t ∧ { t with halls := s.halls, clk := s.clk } = s
        ∧ h.pwr.sampleAt ≤ t.now ∧ s.now ≤ t.now ∧ (t.hall ph.val).pwr.sampleAt = t.now + 64
        ∧ (∀ q, q ≠ ph.val → t.hall q = s.hall q) ∧ (t.hall ph.val).st = h.st ∧ (t.hall ph.val).reg = h.reg
        ∧ (t.hall ph.val).pwr.vcode.toNat =
            (if c < n + 2 then min 160 (h.pwr.vcode.toNat + 1)
             else if n + 6 ≤ c ∧ 15 ≤ h.pwr.hi ∧ h.pwr.boost = false then h.pwr.vcode.toNat - 1 else h.pwr.vcode.toNat)
        ∧ (t.hall ph.val).pwr.short = (if c < n ∧ h.pwr.vcode = 160 then h.pwr.short + 1 else 0)
        ∧ (t.hall ph.val).pwr.margin = BitVec.ofInt 8 (max (-128) (min 127 ((c : Int) - n))))
    ∧ (∀ b : Nat, h.pwr.boostAsked = some b → h.pwr.boost = false → h.powered = true →
      ∃ t, Machine.exec (.boostApply ph) s = .next t ∧ (t.hall ph.val).pwr.boost = true ∧ (t.hall ph.val).pwr.boostAsked = none
        ∧ (t.hall ph.val).pwr.vcode.toNat = min 160 (h.pwr.vcode.toNat + 10) ∧ t.pwr.boosts = satInc s.pwr.boosts
        ∧ (∀ q, q ≠ ph.val → t.hall q = s.hall q))
    ∧ (∀ (b : Nat), h.pwr.boostAsked = some b → h.pwr.boost = true →
      Machine.exec (.boostApply ph) s = .next (s.updHall ph.val (fun h => { h with pwr := { h.pwr with boostAsked := none } })))
    ∧ (s.mainOn = true → h.pwr.failed = false → h.powered = true →
      (∀ (c : Instr), (∃ why mv, c = .regulatorFailure ph why mv) ∨ (c = .paceShortfall ph ∧ 256 ≤ h.pwr.short) →
        ∃ t, Machine.exec c s = .next t ∧ (t.hall ph.val).st = .withdrawn ∧ (t.hall ph.val).pwr.failed = true
          ∧ (t.hall ph.val).heads = [] ∧ (t.hall ph.val).reg = h.reg
          ∧ (s.flt.ringBase.toNat * 2 ^ 21 + 2 ^ s.flt.ringLog.toNat * 64 ≤ storeBase → ∀ b < 0x2000000,
              ∃ tag, t.readByte (storeAddr (galIdx ph.val 0) b) = Config.freeByte tag (storeAddr (galIdx ph.val 0) b))
          ∧ (∀ q, q ≠ ph.val → t.hall q = s.hall q)))
    ∧ (s.clk.running = true → (s.now + 199) / 200 * 200 < 2 ^ 64 →
      ∃ t, Machine.exec .powerWindow s = .next t ∧ t.now = (s.now + 199) / 200 * 200 ∧ t.pwr.window = t.now / 200
        ∧ (∀ e ∈ t.pwr.spent, e ∈ s.pwr.spent ∧ t.pwr.window ≤ e.1 + 8)
        ∧ { t with clk := s.clk, pwr := { t.pwr with window := s.pwr.window, spent := s.pwr.spent } } = s)

/-- WAKE_REQUEST and SLEEP_REQUEST set the bit of each named hall that can take them, and cancel the opposite request; WAKE_GROUP_START starts the
lowest four waiting halls, at least 4,000 treads after the group before, each at the settled vcode of pace high with 4,160 treads to come; HALL_SCRUB_COMPLETE then leaves
every store of the hall zero with fresh check bits and no poison, and stamps the hall. -/
def Obligations.SleepAndWake : Prop :=
  ∀ s : State,
    (∀ (hi : Bool) (v : Word) (i : Fin 32), v = BitVec.ofNat 32 (2 ^ i.val) →
      let ph := if hi then 32 + i.val else i.val
      let b := BitVec.ofNat 64 (2 ^ ph)
      ((s.hall ph).st = .asleep → s.pwr.sleep.getLsbD ph = false →
        Machine.exec (.wakeRequest hi v) s = .next { s with pwr := { s.pwr with wake := s.pwr.wake ||| b } })
      ∧ ((s.hall ph).st ≠ .absent → (s.hall ph).st ≠ .withdrawn → s.pwr.sleep.getLsbD ph = true →
        Machine.exec (.wakeRequest hi v) s = .next { s with pwr := { s.pwr with sleep := s.pwr.sleep &&& ~~~b } })
      ∧ (((s.hall ph).st = .idle ∨ (s.hall ph).st = .running ∨ (s.hall ph).st = .waking ∨ (s.hall ph).st = .testing) →
        s.pwr.wake.getLsbD ph = false →
        Machine.exec (.sleepRequest hi v) s = .next { s with pwr := { s.pwr with sleep := s.pwr.sleep ||| b } })
      ∧ ((s.hall ph).st = .asleep → s.pwr.wake.getLsbD ph = true →
        Machine.exec (.sleepRequest hi v) s = .next { s with pwr := { s.pwr with wake := s.pwr.wake &&& ~~~b } })
      ∧ (((s.hall ph).st = .absent ∨ (s.hall ph).st = .withdrawn) →
        Machine.exec (.wakeRequest hi v) s = .next s ∧ Machine.exec (.sleepRequest hi v) s = .next s))
    ∧ (let g := ((List.range 64).filter (fun ph => s.pwr.wake.getLsbD ph && (s.hall ph).st = .asleep)).take 4
      let t0 := match s.pwr.lastGroup with | some t => t + 4000 | none => 0
      g ≠ [] → s.mainOn = true → Claims.comes s t0 →
      ∃ t, Machine.exec .wakeGroupStart s = .next t ∧ t0 ≤ t.now ∧ t.pwr.lastGroup = some t.now
        ∧ (∀ ph ∈ g, (t.hall ph).st = .waking ∧ (t.hall ph).pwr.vcode = s.settledVcode ph 0
            ∧ (t.hall ph).pwr.wakeAt = some (t.now + 4160) ∧ t.pwr.wake.getLsbD ph = false)
        ∧ (∀ ph, ph ∉ g → t.hall ph = s.hall ph ∧ t.pwr.wake.getLsbD ph = s.pwr.wake.getLsbD ph)
        ∧ t.pwr.wakes.toNat = min (s.pwr.wakes.toNat + g.length) (2 ^ 32 - 1))
    ∧ (∀ (ph : Fin 64) (t0 : Nat), (s.hall ph.val).pwr.wakeAt = some t0 → (s.hall ph.val).st = .waking →
      (s.hall ph.val).pwr.stamp = none → Claims.comes s t0 →
      ∃ t, Machine.exec (.hallScrubComplete ph) s = .next t ∧ (t.hall ph.val).pwr.stamp = some (s.stampOf ph.val)
        ∧ (t.hall ph.val).pwr.wakeAt = none ∧ (t.hall ph.val).st = .waking
        ∧ ∀ g < 16, (t.gal (galIdx ph.val g)).poisoned = []
            ∧ (∀ b < storeBytes, t.readByte (storeAddr (galIdx ph.val g) b) = 0)
            ∧ ∀ u ∈ t.upsets, ∀ line word, u.site ≠ .store (galIdx ph.val g) line word)

/-- A sensor read, no sooner than 1,600 treads after the last, puts the temperatures in the PWR_ registers, and a stack read moves the refresh band with its hysteresis; any source at 110 °C
or more makes the thermal main-power stop, which names one of them. -/
def Obligations.TemperaturesBandsAndTrips : Prop :=
  ∀ s : State, s.mainOn = true →
    (Claims.comes s s.pwr.sensorAt → ∀ x : Temps, (∀ y ∈ x.halls ++ x.arcades ++ [x.atrium], y < 110) →
      ∃ t, Machine.exec (.thermalSensorRead x) s = .next t ∧ s.pwr.sensorAt ≤ t.now ∧ t.pwr.sensorAt = t.now + 1600
        ∧ t.pwr.atrTemp = x.atrium ∧ t.pwr.state = s.pwr.state ∧ t.mem = s.mem
        ∧ (∀ (ph : Nat) (y : Nat), ph < 64 → x.halls[ph]? = some y → (s.hall ph).st ≠ .absent →
            (t.hall ph).pwr.temp = BitVec.ofNat 8 y ∧ (t.hall ph).st = (s.hall ph).st ∧ (t.hall ph).reg = (s.hall ph).reg)
        ∧ (∀ (a : Nat) (y : Nat), a < arcadesOf s.cfg.grade → x.arcades[a]? = some y → SMap.get 0 t.pwr.arcTemp a = y))
    ∧ (Claims.comes s s.pwr.sensorAt → ∀ x : Temps, ((∃ ph y, ph < 64 ∧ x.halls[ph]? = some y ∧ (s.hall ph).st ≠ .absent ∧ 110 ≤ y)
        ∨ (∃ a y, a < arcadesOf s.cfg.grade ∧ x.arcades[a]? = some y ∧ 110 ≤ y) ∨ 110 ≤ x.atrium) →
      ∃ t n y, Machine.exec (.thermalSensorRead x) s = .next t ∧ t.pwr.state = 4 ∧ t.pwr.evtCause = 3
        ∧ t.pwr.evtSource = BitVec.ofNat 8 n ∧ 110 ≤ y
        ∧ ((n < 64 ∧ x.halls[n]? = some y) ∨ (64 ≤ n ∧ n < 69 ∧ x.arcades[n - 64]? = some y) ∨ (n = 69 ∧ y = x.atrium)))
    ∧ (∀ (c : Fin 14) (temp : Nat), s.hasStack c.val = true → s.clk.running = true → (s.now + 16383) / 16384 * 16384 < 2 ^ 64 →
      (temp < 110 → ∃ t, Machine.exec (.stackTemperatureRead c temp) s = .next t ∧ t.now = (s.now + 16383) / 16384 * 16384
        ∧ (t.mc c.val).temp = temp ∧ (∀ d, d ≠ c.val → t.mc d = s.mc d) ∧ t.mem = s.mem
        ∧ (95 < temp → (t.mc c.val).band = 2) ∧ (temp ≤ 83 → (t.mc c.val).band = 0)
        ∧ (85 < temp → temp ≤ 93 → (t.mc c.val).band = 1)
        ∧ (83 < temp → temp ≤ 85 → (t.mc c.val).band = if (s.mc c.val).band = 0 then 0 else 1)
        ∧ (93 < temp → temp ≤ 95 → (t.mc c.val).band = if (s.mc c.val).band = 2 then 2 else 1))
      ∧ (110 ≤ temp → ∃ t, Machine.exec (.stackTemperatureRead c temp) s = .next t ∧ t.pwr.state = 4 ∧ t.pwr.evtCause = 3
          ∧ t.pwr.evtSource = BitVec.ofNat 8 (70 + siteOfStack c.val)))

/-! ### The reference and the time bases -/

/-- REFERENCE_LOST marks the reference lost for the part and every slice and writes a record of cause 0x020D; REFERENCE_TAKEN_BACK locks to it again, with
lost_seen kept. With no reference 100 ms into boot TREAD starts at 0 on the oscillator.
TB1 and TB2 read base + d + floor(d × rate / 2^40). A write of TIM_TB_RATE changes the rate and not the value that the base reads; one of
TIM_TB_STEP_HI adds the step to it; in one tick their order does not matter. A capture holds TB0 to TB3
at one instant. COUNTER_SNAPSHOT_PUBLISH comes at a multiple of 64 in TREAD and gives register reads the counters as they stand.
A pulse output on TB0 raises its pin when its base reaches the pending time: a single pulse is then disarmed, a periodic one waits for the first time
beyond now on its grid. A tenant telemetry record goes to the queue's place every 10^9 counts of TB3, its number first and last. -/
def Obligations.ReferenceTimeBasesAndPulses : Prop :=
  (∀ s : State,
    (s.tim.refLost = false → s.clk.running = true →
      ∃ t, Machine.exec .referenceLost s = .next t ∧ t.tim.refLost = true ∧ t.tim.lostSeen = true ∧ t.tim.locked = false
        ∧ (∀ k ∈ s.admitted, (t.sl k).refLost = true) ∧ t.flt.seq = s.flt.seq + 1 ∧ t.flt.last.extractLsb' 0 16 = 0x020D
        ∧ t.clk = s.clk ∧ t.halls = s.halls)
    ∧ (s.tim.refLost = true →
      ∃ t, Machine.exec .referenceTakenBack s = .next t ∧ t.tim.refLost = false ∧ t.tim.locked = true ∧ t.tim.everLocked = true
        ∧ t.tim.lostSeen = s.tim.lostSeen ∧ { t with tim := s.tim, freeCtr := s.freeCtr } = s)
    ∧ (s.sec.boot = 2 → s.clk.running = false → s.clk.tb3.toNat + 100000000 < 2 ^ 64 →
      ∃ t, Machine.exec .bootReferenceTimeout s = .next t ∧ t.clk.running = true ∧ t.clk.tread = 0 ∧ t.tim.refLost = true
        ∧ t.tim.lostSeen = true ∧ t.tim.locked = false ∧ t.flt.seq = s.flt.seq + 1 ∧ t.flt.last.extractLsb' 0 16 = 0x020D
        ∧ s.clk.tb3.toNat + 100000000 ≤ t.clk.tb3.toNat))
  ∧ (∀ s : State,
    (∀ b < 2, let d := s.clk.tb3 - SMap.get 0 s.tim.anchor b
      s.timeBase (b + 1) = SMap.get 0 s.tim.base b + d
        + BitVec.ofInt 64 ((d.toNat : Int) * (SMap.get 0 s.tim.rate b).toInt / 2 ^ 40))
    ∧ (∀ (b : Fin 2) (v w : Word) (t u : State), Machine.exec (.timTbRateWrite b v) s = .next t →
      Machine.exec (.timTbStepWrite b w) s = .next u → Machine.exec (.timTbStepWrite b w) t = Machine.exec (.timTbRateWrite b v) u)
    ∧ (∀ (b : Fin 2) (v : Word),
      (∃ t, Machine.exec (.timTbRateWrite b v) s = .next t ∧ (∀ i < 4, t.timeBase i = s.timeBase i)
        ∧ SMap.get 0 t.tim.base b.val = s.timeBase (b.val + 1) ∧ SMap.get 0 t.tim.anchor b.val = s.clk.tb3
        ∧ SMap.get 0 t.tim.rate b.val = v ∧ { t with tim := s.tim } = s)
      ∧ (∃ t, Machine.exec (.timTbStepWrite b v) s = .next t
        ∧ SMap.get 0 t.tim.base b.val = SMap.get 0 s.tim.base b.val + (v ++ SMap.get 0 s.tim.stepLo b.val)
        ∧ t.timeBase (b.val + 1) = s.timeBase (b.val + 1) + (v ++ SMap.get 0 s.tim.stepLo b.val)
        ∧ (∀ i < 4, i ≠ b.val + 1 → t.timeBase i = s.timeBase i) ∧ { t with tim := s.tim } = s))
    ∧ (∀ v : Word, v.getLsbD 0 = true → ∃ t, Machine.exec (.timSnapTake v) s = .next t
        ∧ (∀ i < 4, SMap.get 0 t.tim.snap i = s.timeBase i) ∧ t.tim.snapSeq = s.tim.snapSeq + 1
        ∧ { t with tim := { t.tim with snap := s.tim.snap, snapSeq := s.tim.snapSeq } } = s)
    ∧ (∀ v : Word, v.getLsbD 0 = false → Machine.exec (.timSnapTake v) s = .next s)
    ∧ (s.clk.running = true → (s.now + 63) / 64 * 64 < 2 ^ 64 →
      ∃ t, Machine.exec .counterSnapshotPublish s = .next t ∧ t.now = (s.now + 63) / 64 * 64
        ∧ t.pub = ⟨s.halls, s.gals, s.mcs, s.ports, s.links, s.ctxs, s.arcs⟩ ∧ { t with clk := s.clk, pub := s.pub } = s))
  ∧ (∀ s : State,
    (∀ n : Fin 4, let p := s.pulse n.val
      p.en = true → p.base = 0 → Claims.comes s p.next.toNat → p.per ≠ 0 →
      ∃ t, Machine.exec (.tpulse n) s = .next t ∧ p.next.toNat ≤ t.now ∧ (t.pulse n.val).edge = some t.clk.tb3
        ∧ (t.pulse n.val).pulses = p.pulses + 1 ∧ (∀ m, m ≠ n.val → t.pulse m = s.pulse m)
        ∧ (p.mode = false → (t.pulse n.val).en = false)
        ∧ (p.mode = true → (t.pulse n.val).en = true ∧ (t.now + p.per.toNat < 2 ^ 64 →
            t.now < (t.pulse n.val).next.toNat ∧ (t.pulse n.val).next.toNat ≤ t.now + p.per.toNat
              ∧ ((t.pulse n.val).next - p.next).toNat % p.per.toNat = 0))
        ∧ { t with clk := s.clk, tim := s.tim } = s)
    ∧ (∀ q : Fin 16, let x := s.queue q.val
      q.val ≠ 0 → x.tenLo.getLsbD 0 = true → s.clk.tb3.toNat ≥ x.tenAt →
      let a := (x.tenHi ++ x.tenLo).toNat / 64 * 64
      ∃ t, Machine.exec (.tenantTelemetryWrite q) s = .next t ∧ (t.queue q.val).tenSeq = x.tenSeq + 1
        ∧ (t.queue q.val).tenAt = s.clk.tb3.toNat + 1000000000
        ∧ (∀ i < 4, memGet t.hostMem t.hostUndef (a + i) = x.tenSeq.extractLsb' (8 * i) 8
            ∧ memGet t.hostMem t.hostUndef (a + 60 + i) = x.tenSeq.extractLsb' (8 * i) 8)
        ∧ memGet t.hostMem t.hostUndef (a + 6) = x.slice
        ∧ (∀ i < 4, memGet t.hostMem t.hostUndef (a + 8 + i) = (s.sl x.slice.toNat).tel.lastOrd.extractLsb' (8 * i) 8)
        ∧ (∀ i, i < a ∨ a + 64 ≤ i → memGet t.hostMem t.hostUndef i = memGet s.hostMem s.hostUndef i)
        ∧ (∀ n, n ≠ q.val → t.queue n = s.queue n) ∧ t.mem = s.mem ∧ t.clk = s.clk))

/-! ### Boot and resets -/

/-- BOOT with a valid configuration block, sealed record, identity and firmware in the active slot at or above the floor starts the steward: SEC_STAT.boot 2, the
version shown, TREAD from 0 on the reference; with a flash that cannot be read, an unidentified part or no acceptable image it stops in ROM recovery. -/
def Obligations.BootStartsOrRecovers : Prop :=
  ∀ (s : State) (b : BootFind), s.sec.booted = false → s.pwr.in54 = true → s.pins.strapsHeld = false →
    s.pins.sealOpen = false → b.sealOpen = false →
    (b.flash = true → b.flashvStrap = false → b.puf = true → s.rootOk b.factory b.rootF = true → b.identity = true → s.sec.flash.active = false →
      s.imageOk b.slotA b.rootA b.verA = true → b.record = true → b.install = true → b.reference = true →
      ∃ t, Machine.exec (.boot b) s = .next t ∧ t.sec.boot = 2 ∧ t.sec.booted = true ∧ t.sec.fwVer = b.verA ∧ t.sec.instOk = true
        ∧ t.clk.tread = 0 ∧ t.clk.running = true ∧ t.tim.locked = true ∧ t.sec.flash.pinned = true ∧ t.pwr.main = !b.roleStrap
        ∧ t.linkmap = (if b.linkmapStrap then 2 else if s.cfg.grade = .m then 1 else 0)
        ∧ (b.roleStrap = false → s.pwr.state = 1 → t.pwr.state = 2)
        ∧ (b.roleStrap = true → t.pwr.state = s.pwr.state ∧ t.sec.healthSet = true) ∧ t.mem = s.mem)
    ∧ ((b.flash = false ∨ b.flashvStrap = true ∨ b.puf = false ∨ s.rootOk b.factory b.rootF = false
        ∨ (b.identity = false ∧ s.sec.flash.idReset = false)
        ∨ (s.imageOk b.slotA b.rootA b.verA = false ∧ s.imageOk b.slotB b.rootB b.verB = false)) →
      ∃ t, Machine.exec (.boot b) s = .next t ∧ t.sec.boot = 1 ∧ t.sec.booted = true ∧ t.sec.fwVer = s.sec.fwVer
        ∧ t.clk = s.clk ∧ t.pwr.state = s.pwr.state ∧ t.mem = s.mem)

/-- RST_N_ASSERT puts the part in part reset: boot state and registers as after reset, the flash kept. COMPUTE_RESET keeps HBM, the arcades and the slices, puts every
hall to sleep unless absent or withdrawn, and leaves the stores undefined. RESET is made once its result is read or 10 ms later; RESULT gives status and data.
SEAL_BREAK latches the break in the sealed record, with a record of cause 0x0301. -/
def Obligations.ResetsAndTheSeal : Prop :=
  ∀ s : State,
    (∃ t, Machine.exec .rstNAssert s = .next t ∧ t.pins.rstLow = true ∧ t.sec.boot = 0 ∧ t.sec.flash = s.sec.flash ∧ t.cfg.chip = 0xFFFF
      ∧ t.queues = State.reset.queues ∧ t.chans = [] ∧ t.slices = [] ∧ t.flights = [] ∧ t.clk = {} ∧ t.tim = {} ∧ t.flt = { saves := s.flt.saves }
      ∧ t.foyer = {} ∧ t.pwr.in54 = s.pwr.in54 ∧ t.pwr.in12 = s.pwr.in12 ∧ t.pwr.state = 1
      ∧ (∀ ph < 64, (t.hall ph).st = .absent ∨ (t.hall ph).st = .asleep ∨ (t.hall ph).st = .withdrawn))
    ∧ (s.sec.boot = 2 → s.chans = [] → s.foyer.stor = [] →
      ∃ t, Machine.exec .computeReset s = .next t
        ∧ (∀ k, (t.sl k).epoch = (s.sl k).epoch ∧ (t.sl k).offset = (s.sl k).offset ∧ (t.sl k).admitted = (s.sl k).admitted)
        ∧ t.links = s.links ∧ t.ctxs = s.ctxs ∧ t.bays = s.bays ∧ t.clk = s.clk ∧ t.xport = {} ∧ t.stair = {}
        ∧ (∀ a < storeBase, t.readByte a = s.readByte a)
        ∧ (∀ a, storeBase ≤ a → a < storeBase + 1024 * 0x200000 → ∃ tag, t.readByte a = Config.freeByte tag a)
        ∧ (∀ ph < 64, (t.hall ph).st = .absent ∨ (t.hall ph).st = .asleep ∨ (t.hall ph).st = .withdrawn)
        ∧ (∀ c m, s.mcs = [(c, m)] → (t.mc c).plist = m.plist ∧ (t.mc c).temp = m.temp ∧ (t.mc c).reqs = [] ∧ (t.mc c).flights = []))
    ∧ (s.sec.boot = 2 →
      (∀ kind : Byte, kind = 0 ∨ kind = 1 →
        ∃ t, Machine.exec (.reset kind) s = .next t ∧ t.pins.resetPend = some (decide (kind = 1)) ∧ t.pins.smbStatus = 0
          ∧ t.pins.resetAt = s.clk.tb3.toNat + 10000000 ∧ t.sec.boot = 2 ∧ { t with pins := s.pins } = s)
      ∧ (s.pins.resetPend = none →
        Machine.exec .result s = .next { s with pins := { s.pins with
          reply := if s.pins.smbNone then [0x01] else s.pins.smbStatus :: s.pins.smbData } })
      ∧ (s.pins.resetPend = some true → s.clk.tb3.toNat ≥ s.pins.resetAt → ∀ i ∈ [Instr.result, .resetResultTimeout],
        ∃ t, Machine.exec i s = .next t ∧ t.sec.boot = 0 ∧ t.slices = [] ∧ t.pins.resetPend = none))
    ∧ ((s.pwr.in54 = true ∨ s.pwr.in12 = true) → s.sec.flash.sealBroken = false →
      ∃ t, Machine.exec .sealBreak s = .next t ∧ t.sec.flash.sealBroken = true ∧ t.sec.flash.counter = s.sec.flash.counter + 1
        ∧ t.sec.alert.getLsbD 2 = true ∧ t.flt.seq = s.flt.seq + 1 ∧ t.flt.last.extractLsb' 0 16 = 0x0301 ∧ t.pins.sealOpen = true)

/-! ### The management ports -/

/-- The SMBus commands that read: identity, status, a register and a fault record; those that write a register, PWR_CTL.main and ATR_ALERT under the
register's rule, with the record of a refused write. In ROM recovery all but the recovery commands answer refused. -/
def Obligations.ManagementReadsAndWrites : Prop :=
  ∀ s : State,
    let done := fun (code st : Byte) (data : List Byte) (u : State) =>
      ({ u with pins := { u.pins with smbCode := code, smbNone := false, smbStatus := st, smbData := data } } : State)
    (s.sec.boot = 2 → Machine.exec .getId s = .next (done 0x01 0 (bvBytes 2 s.cfg.chip ++ bvBytes 4 s.cfg.install ++ leBytes 1 s.cfg.grade.code
      ++ leBytes 1 s.cfg.stepping.code ++ bvBytes 4 s.sec.fwVer ++ bvBytes 4 s.secStat) s)
    ∧ Machine.exec .getStatus s = .next (done 0x02 0 (bvBytes 4 (s.readReg .pwrStat) ++ bvBytes 4 (s.readReg .atrHealth)
      ++ bvBytes 4 (s.readReg .atrAlert) ++ bvBytes 4 s.secStat) s)
    ∧ (∀ (off : Word) (r : RegId), s.regAt off.toNat = some r →
      Machine.exec (.regRead off) s = .next (done 0x03 0 (bvBytes 4 (s.readReg r)) s))
    ∧ (∀ off : Word, s.regAt off.toNat = none → Machine.exec (.regRead off) s = .next (done 0x03 0 [0, 0, 0, 0] s))
    ∧ (∀ (off v : Word) (r : RegId), s.regAt off.toNat = some r →
      let s1 := { s with pins := { s.pins with smbCode := 0x04, smbNone := false, smbData := [] } }
      (∀ t, s1.writeReg r v = some t → Machine.exec (.smbusRegWrite off v) s = .next (t.reply 0 []))
      ∧ (s1.writeReg r v = none →
        Machine.exec (.smbusRegWrite off v) s = .next ((s1.raise { cause := 0x0117, detail := v ++ off }).reply 2 [])))
    ∧ (∀ off v : Word, s.regAt off.toNat = none → Machine.exec (.smbusRegWrite off v) s = .next (done 0x04 5 [] s))
    ∧ (∀ seq : Word, let back := (s.flt.seq - seq).toNat
      (s.flt.waiting = [] → 0 < back → back ≤ 2 ^ s.flt.ringLog.toNat → back ≤ s.flt.ringN →
        Machine.exec (.faultRead seq) s = .next (done 0x05 0 (s.readBytes (s.ringAddr seq.toNat) 64) s))
      ∧ (back = 0 → Machine.exec (.faultRead seq) s = .next (done 0x05 2 [] s)))
    ∧ (s.pwr.state = 3 → Machine.exec (.main 1) s = .next (done 0x07 0 [] { s with pwr := { s.pwr with main := true } }))
    ∧ (∀ v : Byte, 1 < v.toNat → Machine.exec (.main v) s = .next (done 0x07 5 [] s))
    ∧ (∀ m : Byte, Machine.exec (.clearAlert m) s =
        .next (done 0x0C 0 [] { s with sec := { s.sec with alert := s.sec.alert &&& ~~~(m.extractLsb' 0 6) } })))
    ∧ (s.sec.boot = 1 → ∀ c ∈ [(Instr.regRead 0x10, (0x03 : Byte)), (.smbusRegWrite 0x10 0, 0x04), (.faultRead 0, 0x05), (.main 1, 0x07), (.attest 0, 0x08),
        (.attestRead 0, 0x09), (.presenceStatus, 0x14)], Machine.exec c.1 s = .next (done c.2 2 [] s))

/-- ATTEST makes a report of 334 bytes over the nonce: 220 bytes that name the part and its state, and the signature; it is refused once the identity key
has been erased, and ATTEST_READ gives up to 240 bytes of it. FW_WRITE puts bytes in a slot that is not active or in the installation section;
FW_ACTIVATE makes a valid slot at or above the floor active and raises the floor.
A presence command is pending once accepted, one at a time, for 60 s; PRESENCE_STATUS shows it. Presence shown carries it out: a downgrade
activates its slot and lowers the floor, an identity reset rebuilds the sealed record and resets the part, a debug unlock erases the identity key, an unfence clears the fence record
and scrubs the gallery. Without presence it ends with status 4. -/
def Obligations.AttestationFirmwareAndPresence : Prop :=
  (∀ s : State, s.sec.boot = 2 →
    let done := fun (code st : Byte) (data : List Byte) (u : State) =>
      ({ u with pins := { u.pins with smbCode := code, smbNone := false, smbStatus := st, smbData := data } } : State)
    (∀ nonce : BitVec 256,
      (s.sec.keyErased = false →
        let h := s.reportHead nonce
        let r := h ++ (List.range 114).map (fun i => Config.signature s.sec.flash.salt.toNat h i)
        Machine.exec (.attest nonce) s = .next (done 0x08 0 [] { s with pins := { s.pins with report := r } }) ∧ r.length = 334)
      ∧ (s.sec.keyErased = true → Machine.exec (.attest nonce) s = .next (done 0x08 2 [] s)))
    ∧ (∀ off : BitVec 16, off.toNat < s.pins.report.length →
      Machine.exec (.attestRead off) s = .next (done 0x09 0 ((s.pins.report.drop off.toNat).take 240) s))
    ∧ (s.pins.report = [] → ∀ off : BitVec 16, Machine.exec (.attestRead off) s = .next (done 0x09 2 [] s))
    ∧ (∀ (target : Byte) (off : Word) (bytes : List Byte) (base size : Nat), fwTarget target = some (base, size) →
      bytes.length ≤ 240 → off.toNat + bytes.length ≤ size →
      (target ≠ (if s.sec.flash.active then 1 else 0) →
        ∃ t, Machine.exec (.fwWrite target off bytes) s = .next t ∧ t.pins.smbStatus = 0
          ∧ (∀ i (h : i < bytes.length), (base + off.toNat + i, bytes[i]) ∈ t.sec.flash.bytes)
          ∧ (∀ e ∈ s.sec.flash.bytes, e.1 < base + off.toNat ∨ base + off.toNat + bytes.length ≤ e.1 → e ∈ t.sec.flash.bytes)
          ∧ { t with pins := s.pins, sec := s.sec } = s)
      ∧ (target = (if s.sec.flash.active then 1 else 0) →
        Machine.exec (.fwWrite target off bytes) s = .next (done 0x0A 2 [] s)))
    ∧ (∀ (slot : Byte) (version : Word), slot = 0 ∨ slot = 1 →
      (s.sec.flash.floor.toNat ≤ version.toNat →
        Machine.exec (.fwActivate slot true version) s = .next (done 0x0B 0 [] { s with sec := { s.sec with flash := { s.sec.flash with
          active := decide (slot = 1), floor := version, counter := s.sec.flash.counter + 1 } } }))
      ∧ (version.toNat < s.sec.flash.floor.toNat →
        Machine.exec (.fwActivate slot true version) s = .next (done 0x0B 2 [] s))
      ∧ Machine.exec (.fwActivate slot false version) s = .next (done 0x0B 6 [] s)))
  ∧ (∀ s : State,
    (s.sec.boot = 2 → s.sec.presence = 0 →
      let pend := fun (code : Byte) (n : BitVec 4) (arg : Nat) (ver : Word) => ({ s with
        sec := { s.sec with presence := n, presArg := arg, presVer := ver, presAt := s.clk.tb3.toNat }
        pins := { s.pins with smbCode := code, smbNone := false, smbStatus := 0x03, smbData := [] } } : State)
      (∀ (slot : Byte) (ver : Word), slot = (if s.sec.flash.active then 0 else 1) →
        Machine.exec (.fwDowngrade slot true ver) s = .next (pend 0x10 1 slot.toNat ver))
      ∧ (s.admitted = [] → Machine.exec .identityReset s = .next (pend 0x11 2 0 0))
      ∧ Machine.exec (.debugUnlock true true s.sec.flash.counter) s = .next (pend 0x12 3 0 0)
      ∧ (∀ gi : BitVec 16, gi.toNat < 1024 → s.fencedInFlash gi.toNat = true →
        Machine.exec (.unfence gi) s = .next (pend 0x13 4 gi.toNat 0)))
    ∧ (s.sec.boot = 2 → s.sec.presence ≠ 0 → ∀ c ∈ [Instr.fwDowngrade 0 true 0, .identityReset, .debugUnlock true true 0, .unfence 0],
      ∃ t, Machine.exec c s = .next t ∧ t.pins.smbStatus = 0x01 ∧ { t with pins := s.pins } = s)
    ∧ (∃ t, Machine.exec .rstNAssert s = .next t ∧ t.sec.presence = 0)
    ∧ (s.sec.boot = 2 → Machine.exec .presenceStatus s = .next { s with pins := { s.pins with
        smbCode := 0x14, smbNone := false, smbStatus := 0, smbData := [s.sec.presence.zeroExtend 8, BitVec.ofNat 8 s.presenceLeft] } })
    ∧ (s.clk.tb3.toNat < s.sec.presAt + 60000000000 →
      let f := s.sec.flash
      (s.sec.presence = 1 → s.sec.presArg = (if f.active then 0 else 1) →
        ∃ t, Machine.exec .presenceShown s = .next t ∧ t.sec.flash.active = !f.active ∧ t.sec.flash.floor = s.sec.presVer
          ∧ t.sec.flash.counter = f.counter + 1 ∧ t.sec.presence = 0 ∧ t.sec.alert = s.sec.alert ||| 8
          ∧ t.sec.flash.lowered = (f.lowered || decide (s.sec.presVer.toNat < f.floor.toNat)))
      ∧ (s.sec.presence = 2 → s.admitted = [] →
        ∃ t, Machine.exec .presenceShown s = .next t ∧ t.sec.boot = 0 ∧ t.sec.walkAll = true ∧ t.sec.flash = { f with
          salt := f.salt + 1, idReset := true, pinned := false, fences := [], sealBroken := false, lowered := false
          counter := f.counter + 1 })
      ∧ (s.sec.presence = 3 →
        ∃ t, Machine.exec .presenceShown s = .next t ∧ t.sec.debug = true ∧ t.sec.keyErased = true ∧ t.sec.presence = 0 ∧ t.sec.alert = s.sec.alert ||| 8
          ∧ t.sec.flash = { f with counter := f.counter + 1 } ∧ t.gals = s.gals)
      ∧ (s.sec.presence = 4 → s.sec.presArg < 1024 → s.fencedInFlash s.sec.presArg = true →
        ∃ t, Machine.exec .presenceShown s = .next t ∧ t.fencedInFlash s.sec.presArg = false
          ∧ (t.gal s.sec.presArg).scrubbing = true ∧ (t.gal s.sec.presArg).scrubEnd = s.now + 2560 ∧ t.sec.flash.counter = f.counter + 1 ∧ t.sec.presence = 0
          ∧ t.sec.alert = s.sec.alert ||| 8 ∧ ∀ g, g ≠ s.sec.presArg → t.gal g = s.gal g ∧ t.fencedInFlash g = s.fencedInFlash g))
    ∧ (s.sec.presence ≠ 0 → s.sec.presAt + 60000000000 < 2 ^ 64 →
      ∃ t, Machine.exec .presenceTimeout s = .next t ∧ t.sec.presence = 0 ∧ t.sec.flash = s.sec.flash
        ∧ s.sec.presAt + 60000000000 ≤ t.clk.tb3.toNat ∧ t.sec.alert = s.sec.alert ||| 8
        ∧ (s.pins.smbStatus = 3 → t.pins.smbStatus = 4) ∧ (s.pins.smbStatus ≠ 3 → t.pins.smbStatus = s.pins.smbStatus)))

/-- The instructions of the test access port, while a supply is in range: IDCODE shifts out the version, the part number and the manufacturer, SMD_STATUS shifts out SEC_STAT, SAMPLE/PRELOAD
the sampled pins, BYPASS and every code that the table does not list 0; EXTEST drives the pins in standby and is BYPASS elsewhere. A vendor instruction is BYPASS until DEBUG_UNLOCK,
and stops from then on. Nothing but the port changes. -/
def Obligations.JtagInstructions : Prop :=
  ∀ s : State, (s.pwr.in54 = true ∨ s.pwr.in12 = true) →
    let scanned := fun (code : Byte) (tdo : Word) (d : Option Word) =>
      ({ s with pins := { s.pins with ir := code, tdo, driven := d } } : State)
    let part : BitVec 16 := match s.cfg.grade with | .m => 0x0A14 | .b => 0x0A12 | .n => 0x0A10
    let version : BitVec 4 := match s.cfg.stepping with | .a0 => 0 | .b0 => 1
    Machine.exec .idcode s = .next (scanned 0x01 (version ++ part ++ Config.jedec ++ 1#1) none)
    ∧ Machine.exec .smdStatus s = .next (scanned 0x10 s.secStat none)
    ∧ (∀ code : Byte, Machine.exec (.bypass code) s = .next (scanned code 0 none))
    ∧ (∀ w : Word, ∃ t, Machine.exec (.samplePreload w) s = .next t ∧ t.pins.tdo = w ∧ t.pins.scan = w ∧ t.pins.driven = none
        ∧ t.pins.ir = 0x02 ∧ { t with pins := s.pins } = s)
    ∧ (∀ w : Word, s.pwr.state = 1 → ∃ t, Machine.exec (.extest w) s = .next t ∧ t.pins.driven = some w ∧ t.pins.ir = 0x00
        ∧ t.scanDrives = some w ∧ { t with pins := s.pins, freeCtr := s.freeCtr } = s)
    ∧ (∀ w : Word, s.pwr.state ≠ 1 → Machine.exec (.extest w) s = .next (scanned 0x00 0 none))
    ∧ (∀ code : Byte, (s.sec.debug = false ∨ code.toNat < 0x20 ∨ 0x30 ≤ code.toNat) →
      Machine.exec (.vendorDebug code) s = .next (scanned code 0 none))
    ∧ (∀ code : Byte, s.sec.debug = true → 0x20 ≤ code.toNat → code.toNat < 0x30 →
      Machine.exec (.vendorDebug code) s = .refused .vendorInstruction)

/-! ### Reset -/

/-- What the spec says of the part after a part reset: no slice is admitted, no flight resident, every queue disabled and idle with the operator queue on every channel, the registers at the
reset values that the tables give. That main power is off, and that no hall is awake, is how the model begins (log entries 2 to 4, DESIGN CHOICE). -/
def Obligations.ResetLeaves : Prop :=
  let s := State.reset
  s.admitted = [] ∧ s.resident = [] ∧ s.pending = [] ∧ s.chans = [] ∧ s.sec.boot = 0 ∧ s.sec.booted = false
    ∧ (∀ n < 16, (s.queue n).en = false ∧ (s.queue n).idle = true ∧ (s.queue n).chm = if n = 0 then 0xFFFF else 0)
    ∧ s.foyer.poll = 4 ∧ s.tim.lrecLog = 8 ∧ s.flt.ringLog = 12 ∧ s.flt.storm = 64 ∧ s.flt.walkCe = 4 ∧ s.flt.repLim = 3
    ∧ s.pwr.throttle = 95 ∧ s.pwr.hbmThr = 100 ∧ s.bcnInt = 16 ∧ s.flt.seq = 0 ∧ s.tim.snapSeq = 0
    ∧ (∀ ph < 64, (s.hall ph).reg.vmap = 0 ∧ (s.hall ph).reg.scrubEn = true ∧ (s.hall ph).reg.scrubInt = 0x100 ∧ (s.hall ph).st = .asleep)
    ∧ (∀ k < 255, SMap.get 0x4000#17 s.tim.idleGap k = 16384 ∧ SMap.get 0x00FF0080#32 s.tim.idleW k = 0x00FF0080
        ∧ (s.sl k).admitted = false ∧ (s.sl k).err.cls = 0)
    ∧ (∀ c < 14, (s.mc c).scrubEn = true ∧ (s.mc c).scrubInt = 0x1000 ∧ (s.mc c).plist = [])
    ∧ (∀ a < 0x100080000000, s.readByte a = Config.freeByte 0 a)
end

