-- ==== Sys2Proof/Laws/Map.lean ====
section
/-! SUPPORT. Laws of sparse maps: a read after a write, and that every operation keeps the canonical form.
-/
namespace Sys2Proof.Machine

variable {α : Type}

theorem SMap.erase_eq_filter (m : SMap α) (k : Nat) : SMap.erase m k = m.filter (fun e => decide (e.1 ≠ k)) := by
  induction m with
  | nil => rfl
  | cons e m ih =>
    obtain ⟨a, v⟩ := e
    by_cases h : a = k <;> simp [SMap.erase, h, ih]

theorem SMap.get_erase (d : α) (m : SMap α) (k j : Nat) :
    SMap.get d (SMap.erase m k) j = if j = k then d else SMap.get d m j := by
  induction m with
  | nil => simp [SMap.erase, SMap.get]
  | cons e m ih =>
    obtain ⟨a, v⟩ := e
    by_cases h : a = k
    · subst h
      by_cases hj : j = a
      · subst hj; simpa [SMap.erase] using ih
      · simp [SMap.erase, SMap.get, ih, hj, Ne.symm hj]
    · by_cases hj : a = j
      · subst hj
        simp [SMap.erase, SMap.get, h]
      · simp [SMap.erase, SMap.get, h, hj, ih]

theorem SMap.get_place_ne (d : α) (m : SMap α) (k j : Nat) (v : α) (h : j ≠ k) :
    SMap.get d (SMap.place m k v) j = SMap.get d m j := by
  induction m with
  | nil => simp [SMap.place, SMap.get, Ne.symm h]
  | cons e m ih =>
    obtain ⟨a, w⟩ := e
    by_cases hk : k < a
    · simp [SMap.place, hk, SMap.get, Ne.symm h]
    · simp [SMap.place, hk, SMap.get, ih]

theorem SMap.get_place_self (d : α) (m : SMap α) (k : Nat) (v : α) (h : ∀ e ∈ m, e.1 ≠ k) :
    SMap.get d (SMap.place m k v) k = v := by
  induction m with
  | nil => simp [SMap.place, SMap.get]
  | cons e m ih =>
    obtain ⟨a, w⟩ := e
    have ha : a ≠ k := h (a, w) (by simp)
    by_cases hk : k < a
    · simp [SMap.place, hk, SMap.get]
    · simp [SMap.place, hk, SMap.get, ha]
      exact ih (fun e he => h e (by simp [he]))

/-- What a key holds after a write. -/
theorem SMap.get_set [DecidableEq α] (d : α) (m : SMap α) (k j : Nat) (v : α) :
    SMap.get d (SMap.set d m k v) j = if j = k then v else SMap.get d m j := by
  unfold SMap.set
  by_cases hv : v = d
  · simp only [hv, if_true, SMap.get_erase]
  · simp only [hv, if_false]
    by_cases hj : j = k
    · subst hj
      simp only [if_true]
      exact SMap.get_place_self d _ _ v (by simp [SMap.erase_eq_filter])
    · simp only [SMap.get_place_ne _ _ _ _ _ hj, SMap.get_erase, hj, if_false]

@[simp] theorem SMap.get_set_self [DecidableEq α] (d : α) (m : SMap α) (k : Nat) (v : α) :
    SMap.get d (SMap.set d m k v) k = v := by simp [SMap.get_set]

@[simp] theorem SMap.get_nil (d : α) (k : Nat) : SMap.get d [] k = d := rfl

theorem SMap.get_upd [DecidableEq α] (d : α) (m : SMap α) (k j : Nat) (f : α → α) :
    SMap.get d (SMap.upd d m k f) j = if j = k then f (SMap.get d m k) else SMap.get d m j := SMap.get_set ..

/-! ### The canonical form -/

theorem SMap.rising_iff (m : SMap α) : SMap.rising m = true ↔ m.Pairwise (fun x y => x.1 < y.1) := by
  induction m with
  | nil => simp [SMap.rising]
  | cons e m ih =>
    cases m with
    | nil => simp [SMap.rising]
    | cons e' m =>
      obtain ⟨a, v⟩ := e
      obtain ⟨b, w⟩ := e'
      simp only [SMap.rising, Bool.and_eq_true, decide_eq_true_eq, ih]
      rw [List.pairwise_cons (l := (b, w) :: m)]
      refine and_congr_left fun hm => ?_
      constructor
      · intro hab x hx
        rcases List.mem_cons.1 hx with rfl | hx
        · exact hab
        · exact Nat.lt_trans hab ((List.pairwise_cons.1 hm).1 x hx)
      · exact fun ha => ha (b, w) (by simp)

theorem SMap.wf_iff [DecidableEq α] (d : α) (m : SMap α) :
    SMap.wf d m = true ↔ m.Pairwise (fun x y => x.1 < y.1) ∧ ∀ e ∈ m, e.2 ≠ d := by
  simp [SMap.wf, SMap.rising_iff]

/-- Entries taken out leave the canonical form. -/
theorem SMap.wf_filter [DecidableEq α] (d : α) (m : SMap α) (p : Nat × α → Bool) (h : SMap.wf d m = true) :
    SMap.wf d (m.filter p) = true := by
  rw [SMap.wf_iff] at *
  exact ⟨h.1.filter p, fun e he => h.2 e (List.mem_filter.1 he).1⟩

theorem SMap.mem_place (m : SMap α) (k : Nat) (v : α) (e : Nat × α) (h : e ∈ SMap.place m k v) : e = (k, v) ∨ e ∈ m := by
  induction m with
  | nil => simpa [SMap.place] using h
  | cons x m ih =>
    obtain ⟨a, w⟩ := x
    by_cases hk : k < a
    · simpa [SMap.place, hk] using h
    · simp only [SMap.place, hk, if_false, List.mem_cons] at h ⊢
      rcases h with h | h
      · exact .inr (.inl h)
      · rcases ih h with h | h
        · exact .inl h
        · exact .inr (.inr h)

theorem SMap.pairwise_place (m : SMap α) (k : Nat) (v : α) (h : m.Pairwise (fun x y => x.1 < y.1)) (hk : ∀ e ∈ m, e.1 ≠ k) :
    (SMap.place m k v).Pairwise (fun x y => x.1 < y.1) := by
  induction m with
  | nil => simp [SMap.place]
  | cons x m ih =>
    obtain ⟨a, w⟩ := x
    rw [List.pairwise_cons] at h
    by_cases hl : k < a
    · simp only [SMap.place, hl, if_true, List.pairwise_cons]
      refine ⟨fun e he => ?_, h.1, h.2⟩
      rcases List.mem_cons.1 he with rfl | he
      · exact hl
      · exact Nat.lt_trans hl (h.1 e he)
    · simp only [SMap.place, hl, if_false, List.pairwise_cons]
      refine ⟨fun e he => ?_, ih h.2 (fun e he => hk e (by simp [he]))⟩
      rcases SMap.mem_place m k v e he with rfl | he
      · have := hk (a, w) (by simp)
        exact Nat.lt_of_le_of_ne (Nat.le_of_not_lt hl) this
      · exact h.1 e he

/-- A write keeps the canonical form. -/
theorem SMap.wf_set [DecidableEq α] (d : α) (m : SMap α) (k : Nat) (v : α) (h : SMap.wf d m = true) :
    SMap.wf d (SMap.set d m k v) = true := by
  have he : SMap.wf d (SMap.erase m k) = true := by rw [SMap.erase_eq_filter]; exact SMap.wf_filter d m _ h
  unfold SMap.set
  by_cases hv : v = d
  · simpa [hv] using he
  · simp only [hv, if_false]
    rw [SMap.wf_iff] at *
    refine ⟨SMap.pairwise_place _ _ _ he.1 (by simp [SMap.erase_eq_filter]), fun e hm => ?_⟩
    rcases SMap.mem_place _ _ _ e hm with rfl | hm
    · exact hv
    · exact he.2 e hm

end Sys2Proof.Machine
end

