-- ==== Sys2Proof/Laws/State.lean ====
section
/-! SUPPORT. Laws of the state: what each update of one unit leaves, field by field, and what a unit is after an update.
-/
namespace Sys2Proof.Machine

variable (s : State)

/-! ### updHall -/

@[simp] theorem State.updHall_pending (ph : Nat) (f : Hall → Hall) : (s.updHall ph f).pending = s.pending := rfl
@[simp] theorem State.updHall_cfg (ph : Nat) (f : Hall → Hall) : (s.updHall ph f).cfg = s.cfg := rfl
@[simp] theorem State.updHall_clk (ph : Nat) (f : Hall → Hall) : (s.updHall ph f).clk = s.clk := rfl
@[simp] theorem State.updHall_mem (ph : Nat) (f : Hall → Hall) : (s.updHall ph f).mem = s.mem := rfl
@[simp] theorem State.updHall_undef (ph : Nat) (f : Hall → Hall) : (s.updHall ph f).undef = s.undef := rfl
@[simp] theorem State.updHall_unseen (ph : Nat) (f : Hall → Hall) : (s.updHall ph f).unseen = s.unseen := rfl
@[simp] theorem State.updHall_hostMem (ph : Nat) (f : Hall → Hall) : (s.updHall ph f).hostMem = s.hostMem := rfl
@[simp] theorem State.updHall_hostUndef (ph : Nat) (f : Hall → Hall) : (s.updHall ph f).hostUndef = s.hostUndef := rfl
@[simp] theorem State.updHall_upsets (ph : Nat) (f : Hall → Hall) : (s.updHall ph f).upsets = s.upsets := rfl
@[simp] theorem State.updHall_gals (ph : Nat) (f : Hall → Hall) : (s.updHall ph f).gals = s.gals := rfl
@[simp] theorem State.updHall_xport (ph : Nat) (f : Hall → Hall) : (s.updHall ph f).xport = s.xport := rfl
@[simp] theorem State.updHall_mcs (ph : Nat) (f : Hall → Hall) : (s.updHall ph f).mcs = s.mcs := rfl
@[simp] theorem State.updHall_linkmap (ph : Nat) (f : Hall → Hall) : (s.updHall ph f).linkmap = s.linkmap := rfl
@[simp] theorem State.updHall_mesh2d (ph : Nat) (f : Hall → Hall) : (s.updHall ph f).mesh2d = s.mesh2d := rfl
@[simp] theorem State.updHall_bcnInt (ph : Nat) (f : Hall → Hall) : (s.updHall ph f).bcnInt = s.bcnInt := rfl
@[simp] theorem State.updHall_ports (ph : Nat) (f : Hall → Hall) : (s.updHall ph f).ports = s.ports := rfl
@[simp] theorem State.updHall_links (ph : Nat) (f : Hall → Hall) : (s.updHall ph f).links = s.links := rfl
@[simp] theorem State.updHall_ctxs (ph : Nat) (f : Hall → Hall) : (s.updHall ph f).ctxs = s.ctxs := rfl
@[simp] theorem State.updHall_bays (ph : Nat) (f : Hall → Hall) : (s.updHall ph f).bays = s.bays := rfl
@[simp] theorem State.updHall_arcs (ph : Nat) (f : Hall → Hall) : (s.updHall ph f).arcs = s.arcs := rfl
@[simp] theorem State.updHall_relays (ph : Nat) (f : Hall → Hall) : (s.updHall ph f).relays = s.relays := rfl
@[simp] theorem State.updHall_inbox (ph : Nat) (f : Hall → Hall) : (s.updHall ph f).inbox = s.inbox := rfl
@[simp] theorem State.updHall_flights (ph : Nat) (f : Hall → Hall) : (s.updHall ph f).flights = s.flights := rfl
@[simp] theorem State.updHall_slices (ph : Nat) (f : Hall → Hall) : (s.updHall ph f).slices = s.slices := rfl
@[simp] theorem State.updHall_stair (ph : Nat) (f : Hall → Hall) : (s.updHall ph f).stair = s.stair := rfl
@[simp] theorem State.updHall_foyer (ph : Nat) (f : Hall → Hall) : (s.updHall ph f).foyer = s.foyer := rfl
@[simp] theorem State.updHall_queues (ph : Nat) (f : Hall → Hall) : (s.updHall ph f).queues = s.queues := rfl
@[simp] theorem State.updHall_chans (ph : Nat) (f : Hall → Hall) : (s.updHall ph f).chans = s.chans := rfl
@[simp] theorem State.updHall_tim (ph : Nat) (f : Hall → Hall) : (s.updHall ph f).tim = s.tim := rfl
@[simp] theorem State.updHall_flt (ph : Nat) (f : Hall → Hall) : (s.updHall ph f).flt = s.flt := rfl
@[simp] theorem State.updHall_pwr (ph : Nat) (f : Hall → Hall) : (s.updHall ph f).pwr = s.pwr := rfl
@[simp] theorem State.updHall_sec (ph : Nat) (f : Hall → Hall) : (s.updHall ph f).sec = s.sec := rfl
@[simp] theorem State.updHall_pins (ph : Nat) (f : Hall → Hall) : (s.updHall ph f).pins = s.pins := rfl
@[simp] theorem State.updHall_pub (ph : Nat) (f : Hall → Hall) : (s.updHall ph f).pub = s.pub := rfl
@[simp] theorem State.updHall_freeCtr (ph : Nat) (f : Hall → Hall) : (s.updHall ph f).freeCtr = s.freeCtr := rfl

theorem State.updHall_hall (ph : Nat) (f : Hall → Hall) (j : Nat) : (s.updHall ph f).hall j = if j = ph then f (s.hall ph) else s.hall j := SMap.get_set ..
@[simp] theorem State.updHall_hall_self (ph : Nat) (f : Hall → Hall) : (s.updHall ph f).hall ph = f (s.hall ph) := SMap.get_set_self ..

/-! ### updGal -/

@[simp] theorem State.updGal_pending (gi : Nat) (f : Gallery → Gallery) : (s.updGal gi f).pending = s.pending := rfl
@[simp] theorem State.updGal_cfg (gi : Nat) (f : Gallery → Gallery) : (s.updGal gi f).cfg = s.cfg := rfl
@[simp] theorem State.updGal_clk (gi : Nat) (f : Gallery → Gallery) : (s.updGal gi f).clk = s.clk := rfl
@[simp] theorem State.updGal_mem (gi : Nat) (f : Gallery → Gallery) : (s.updGal gi f).mem = s.mem := rfl
@[simp] theorem State.updGal_undef (gi : Nat) (f : Gallery → Gallery) : (s.updGal gi f).undef = s.undef := rfl
@[simp] theorem State.updGal_unseen (gi : Nat) (f : Gallery → Gallery) : (s.updGal gi f).unseen = s.unseen := rfl
@[simp] theorem State.updGal_hostMem (gi : Nat) (f : Gallery → Gallery) : (s.updGal gi f).hostMem = s.hostMem := rfl
@[simp] theorem State.updGal_hostUndef (gi : Nat) (f : Gallery → Gallery) : (s.updGal gi f).hostUndef = s.hostUndef := rfl
@[simp] theorem State.updGal_upsets (gi : Nat) (f : Gallery → Gallery) : (s.updGal gi f).upsets = s.upsets := rfl
@[simp] theorem State.updGal_halls (gi : Nat) (f : Gallery → Gallery) : (s.updGal gi f).halls = s.halls := rfl
@[simp] theorem State.updGal_xport (gi : Nat) (f : Gallery → Gallery) : (s.updGal gi f).xport = s.xport := rfl
@[simp] theorem State.updGal_mcs (gi : Nat) (f : Gallery → Gallery) : (s.updGal gi f).mcs = s.mcs := rfl
@[simp] theorem State.updGal_linkmap (gi : Nat) (f : Gallery → Gallery) : (s.updGal gi f).linkmap = s.linkmap := rfl
@[simp] theorem State.updGal_mesh2d (gi : Nat) (f : Gallery → Gallery) : (s.updGal gi f).mesh2d = s.mesh2d := rfl
@[simp] theorem State.updGal_bcnInt (gi : Nat) (f : Gallery → Gallery) : (s.updGal gi f).bcnInt = s.bcnInt := rfl
@[simp] theorem State.updGal_ports (gi : Nat) (f : Gallery → Gallery) : (s.updGal gi f).ports = s.ports := rfl
@[simp] theorem State.updGal_links (gi : Nat) (f : Gallery → Gallery) : (s.updGal gi f).links = s.links := rfl
@[simp] theorem State.updGal_ctxs (gi : Nat) (f : Gallery → Gallery) : (s.updGal gi f).ctxs = s.ctxs := rfl
@[simp] theorem State.updGal_bays (gi : Nat) (f : Gallery → Gallery) : (s.updGal gi f).bays = s.bays := rfl
@[simp] theorem State.updGal_arcs (gi : Nat) (f : Gallery → Gallery) : (s.updGal gi f).arcs = s.arcs := rfl
@[simp] theorem State.updGal_relays (gi : Nat) (f : Gallery → Gallery) : (s.updGal gi f).relays = s.relays := rfl
@[simp] theorem State.updGal_inbox (gi : Nat) (f : Gallery → Gallery) : (s.updGal gi f).inbox = s.inbox := rfl
@[simp] theorem State.updGal_flights (gi : Nat) (f : Gallery → Gallery) : (s.updGal gi f).flights = s.flights := rfl
@[simp] theorem State.updGal_slices (gi : Nat) (f : Gallery → Gallery) : (s.updGal gi f).slices = s.slices := rfl
@[simp] theorem State.updGal_stair (gi : Nat) (f : Gallery → Gallery) : (s.updGal gi f).stair = s.stair := rfl
@[simp] theorem State.updGal_foyer (gi : Nat) (f : Gallery → Gallery) : (s.updGal gi f).foyer = s.foyer := rfl
@[simp] theorem State.updGal_queues (gi : Nat) (f : Gallery → Gallery) : (s.updGal gi f).queues = s.queues := rfl
@[simp] theorem State.updGal_chans (gi : Nat) (f : Gallery → Gallery) : (s.updGal gi f).chans = s.chans := rfl
@[simp] theorem State.updGal_tim (gi : Nat) (f : Gallery → Gallery) : (s.updGal gi f).tim = s.tim := rfl
@[simp] theorem State.updGal_flt (gi : Nat) (f : Gallery → Gallery) : (s.updGal gi f).flt = s.flt := rfl
@[simp] theorem State.updGal_pwr (gi : Nat) (f : Gallery → Gallery) : (s.updGal gi f).pwr = s.pwr := rfl
@[simp] theorem State.updGal_sec (gi : Nat) (f : Gallery → Gallery) : (s.updGal gi f).sec = s.sec := rfl
@[simp] theorem State.updGal_pins (gi : Nat) (f : Gallery → Gallery) : (s.updGal gi f).pins = s.pins := rfl
@[simp] theorem State.updGal_pub (gi : Nat) (f : Gallery → Gallery) : (s.updGal gi f).pub = s.pub := rfl
@[simp] theorem State.updGal_freeCtr (gi : Nat) (f : Gallery → Gallery) : (s.updGal gi f).freeCtr = s.freeCtr := rfl

theorem State.updGal_gal (gi : Nat) (f : Gallery → Gallery) (j : Nat) : (s.updGal gi f).gal j = if j = gi then f (s.gal gi) else s.gal j := SMap.get_set ..
@[simp] theorem State.updGal_gal_self (gi : Nat) (f : Gallery → Gallery) : (s.updGal gi f).gal gi = f (s.gal gi) := SMap.get_set_self ..

/-! ### updMc -/

@[simp] theorem State.updMc_pending (k : Nat) (f : MemCtl → MemCtl) : (s.updMc k f).pending = s.pending := rfl
@[simp] theorem State.updMc_cfg (k : Nat) (f : MemCtl → MemCtl) : (s.updMc k f).cfg = s.cfg := rfl
@[simp] theorem State.updMc_clk (k : Nat) (f : MemCtl → MemCtl) : (s.updMc k f).clk = s.clk := rfl
@[simp] theorem State.updMc_mem (k : Nat) (f : MemCtl → MemCtl) : (s.updMc k f).mem = s.mem := rfl
@[simp] theorem State.updMc_undef (k : Nat) (f : MemCtl → MemCtl) : (s.updMc k f).undef = s.undef := rfl
@[simp] theorem State.updMc_unseen (k : Nat) (f : MemCtl → MemCtl) : (s.updMc k f).unseen = s.unseen := rfl
@[simp] theorem State.updMc_hostMem (k : Nat) (f : MemCtl → MemCtl) : (s.updMc k f).hostMem = s.hostMem := rfl
@[simp] theorem State.updMc_hostUndef (k : Nat) (f : MemCtl → MemCtl) : (s.updMc k f).hostUndef = s.hostUndef := rfl
@[simp] theorem State.updMc_upsets (k : Nat) (f : MemCtl → MemCtl) : (s.updMc k f).upsets = s.upsets := rfl
@[simp] theorem State.updMc_halls (k : Nat) (f : MemCtl → MemCtl) : (s.updMc k f).halls = s.halls := rfl
@[simp] theorem State.updMc_gals (k : Nat) (f : MemCtl → MemCtl) : (s.updMc k f).gals = s.gals := rfl
@[simp] theorem State.updMc_xport (k : Nat) (f : MemCtl → MemCtl) : (s.updMc k f).xport = s.xport := rfl
@[simp] theorem State.updMc_linkmap (k : Nat) (f : MemCtl → MemCtl) : (s.updMc k f).linkmap = s.linkmap := rfl
@[simp] theorem State.updMc_mesh2d (k : Nat) (f : MemCtl → MemCtl) : (s.updMc k f).mesh2d = s.mesh2d := rfl
@[simp] theorem State.updMc_bcnInt (k : Nat) (f : MemCtl → MemCtl) : (s.updMc k f).bcnInt = s.bcnInt := rfl
@[simp] theorem State.updMc_ports (k : Nat) (f : MemCtl → MemCtl) : (s.updMc k f).ports = s.ports := rfl
@[simp] theorem State.updMc_links (k : Nat) (f : MemCtl → MemCtl) : (s.updMc k f).links = s.links := rfl
@[simp] theorem State.updMc_ctxs (k : Nat) (f : MemCtl → MemCtl) : (s.updMc k f).ctxs = s.ctxs := rfl
@[simp] theorem State.updMc_bays (k : Nat) (f : MemCtl → MemCtl) : (s.updMc k f).bays = s.bays := rfl
@[simp] theorem State.updMc_arcs (k : Nat) (f : MemCtl → MemCtl) : (s.updMc k f).arcs = s.arcs := rfl
@[simp] theorem State.updMc_relays (k : Nat) (f : MemCtl → MemCtl) : (s.updMc k f).relays = s.relays := rfl
@[simp] theorem State.updMc_inbox (k : Nat) (f : MemCtl → MemCtl) : (s.updMc k f).inbox = s.inbox := rfl
@[simp] theorem State.updMc_flights (k : Nat) (f : MemCtl → MemCtl) : (s.updMc k f).flights = s.flights := rfl
@[simp] theorem State.updMc_slices (k : Nat) (f : MemCtl → MemCtl) : (s.updMc k f).slices = s.slices := rfl
@[simp] theorem State.updMc_stair (k : Nat) (f : MemCtl → MemCtl) : (s.updMc k f).stair = s.stair := rfl
@[simp] theorem State.updMc_foyer (k : Nat) (f : MemCtl → MemCtl) : (s.updMc k f).foyer = s.foyer := rfl
@[simp] theorem State.updMc_queues (k : Nat) (f : MemCtl → MemCtl) : (s.updMc k f).queues = s.queues := rfl
@[simp] theorem State.updMc_chans (k : Nat) (f : MemCtl → MemCtl) : (s.updMc k f).chans = s.chans := rfl
@[simp] theorem State.updMc_tim (k : Nat) (f : MemCtl → MemCtl) : (s.updMc k f).tim = s.tim := rfl
@[simp] theorem State.updMc_flt (k : Nat) (f : MemCtl → MemCtl) : (s.updMc k f).flt = s.flt := rfl
@[simp] theorem State.updMc_pwr (k : Nat) (f : MemCtl → MemCtl) : (s.updMc k f).pwr = s.pwr := rfl
@[simp] theorem State.updMc_sec (k : Nat) (f : MemCtl → MemCtl) : (s.updMc k f).sec = s.sec := rfl
@[simp] theorem State.updMc_pins (k : Nat) (f : MemCtl → MemCtl) : (s.updMc k f).pins = s.pins := rfl
@[simp] theorem State.updMc_pub (k : Nat) (f : MemCtl → MemCtl) : (s.updMc k f).pub = s.pub := rfl
@[simp] theorem State.updMc_freeCtr (k : Nat) (f : MemCtl → MemCtl) : (s.updMc k f).freeCtr = s.freeCtr := rfl

theorem State.updMc_mc (k : Nat) (f : MemCtl → MemCtl) (j : Nat) : (s.updMc k f).mc j = if j = k then f (s.mc k) else s.mc j := SMap.get_set ..
@[simp] theorem State.updMc_mc_self (k : Nat) (f : MemCtl → MemCtl) : (s.updMc k f).mc k = f (s.mc k) := SMap.get_set_self ..

/-! ### updPort -/

@[simp] theorem State.updPort_pending (p : Nat) (f : Port → Port) : (s.updPort p f).pending = s.pending := rfl
@[simp] theorem State.updPort_cfg (p : Nat) (f : Port → Port) : (s.updPort p f).cfg = s.cfg := rfl
@[simp] theorem State.updPort_clk (p : Nat) (f : Port → Port) : (s.updPort p f).clk = s.clk := rfl
@[simp] theorem State.updPort_mem (p : Nat) (f : Port → Port) : (s.updPort p f).mem = s.mem := rfl
@[simp] theorem State.updPort_undef (p : Nat) (f : Port → Port) : (s.updPort p f).undef = s.undef := rfl
@[simp] theorem State.updPort_unseen (p : Nat) (f : Port → Port) : (s.updPort p f).unseen = s.unseen := rfl
@[simp] theorem State.updPort_hostMem (p : Nat) (f : Port → Port) : (s.updPort p f).hostMem = s.hostMem := rfl
@[simp] theorem State.updPort_hostUndef (p : Nat) (f : Port → Port) : (s.updPort p f).hostUndef = s.hostUndef := rfl
@[simp] theorem State.updPort_upsets (p : Nat) (f : Port → Port) : (s.updPort p f).upsets = s.upsets := rfl
@[simp] theorem State.updPort_halls (p : Nat) (f : Port → Port) : (s.updPort p f).halls = s.halls := rfl
@[simp] theorem State.updPort_gals (p : Nat) (f : Port → Port) : (s.updPort p f).gals = s.gals := rfl
@[simp] theorem State.updPort_xport (p : Nat) (f : Port → Port) : (s.updPort p f).xport = s.xport := rfl
@[simp] theorem State.updPort_mcs (p : Nat) (f : Port → Port) : (s.updPort p f).mcs = s.mcs := rfl
@[simp] theorem State.updPort_linkmap (p : Nat) (f : Port → Port) : (s.updPort p f).linkmap = s.linkmap := rfl
@[simp] theorem State.updPort_mesh2d (p : Nat) (f : Port → Port) : (s.updPort p f).mesh2d = s.mesh2d := rfl
@[simp] theorem State.updPort_bcnInt (p : Nat) (f : Port → Port) : (s.updPort p f).bcnInt = s.bcnInt := rfl
@[simp] theorem State.updPort_links (p : Nat) (f : Port → Port) : (s.updPort p f).links = s.links := rfl
@[simp] theorem State.updPort_ctxs (p : Nat) (f : Port → Port) : (s.updPort p f).ctxs = s.ctxs := rfl
@[simp] theorem State.updPort_bays (p : Nat) (f : Port → Port) : (s.updPort p f).bays = s.bays := rfl
@[simp] theorem State.updPort_arcs (p : Nat) (f : Port → Port) : (s.updPort p f).arcs = s.arcs := rfl
@[simp] theorem State.updPort_relays (p : Nat) (f : Port → Port) : (s.updPort p f).relays = s.relays := rfl
@[simp] theorem State.updPort_inbox (p : Nat) (f : Port → Port) : (s.updPort p f).inbox = s.inbox := rfl
@[simp] theorem State.updPort_flights (p : Nat) (f : Port → Port) : (s.updPort p f).flights = s.flights := rfl
@[simp] theorem State.updPort_slices (p : Nat) (f : Port → Port) : (s.updPort p f).slices = s.slices := rfl
@[simp] theorem State.updPort_stair (p : Nat) (f : Port → Port) : (s.updPort p f).stair = s.stair := rfl
@[simp] theorem State.updPort_foyer (p : Nat) (f : Port → Port) : (s.updPort p f).foyer = s.foyer := rfl
@[simp] theorem State.updPort_queues (p : Nat) (f : Port → Port) : (s.updPort p f).queues = s.queues := rfl
@[simp] theorem State.updPort_chans (p : Nat) (f : Port → Port) : (s.updPort p f).chans = s.chans := rfl
@[simp] theorem State.updPort_tim (p : Nat) (f : Port → Port) : (s.updPort p f).tim = s.tim := rfl
@[simp] theorem State.updPort_flt (p : Nat) (f : Port → Port) : (s.updPort p f).flt = s.flt := rfl
@[simp] theorem State.updPort_pwr (p : Nat) (f : Port → Port) : (s.updPort p f).pwr = s.pwr := rfl
@[simp] theorem State.updPort_sec (p : Nat) (f : Port → Port) : (s.updPort p f).sec = s.sec := rfl
@[simp] theorem State.updPort_pins (p : Nat) (f : Port → Port) : (s.updPort p f).pins = s.pins := rfl
@[simp] theorem State.updPort_pub (p : Nat) (f : Port → Port) : (s.updPort p f).pub = s.pub := rfl
@[simp] theorem State.updPort_freeCtr (p : Nat) (f : Port → Port) : (s.updPort p f).freeCtr = s.freeCtr := rfl

theorem State.updPort_port (p : Nat) (f : Port → Port) (j : Nat) : (s.updPort p f).port j = if j = p then f (s.port p) else s.port j := SMap.get_set ..
@[simp] theorem State.updPort_port_self (p : Nat) (f : Port → Port) : (s.updPort p f).port p = f (s.port p) := SMap.get_set_self ..

/-! ### updLink -/

@[simp] theorem State.updLink_pending (l : Nat) (f : Link → Link) : (s.updLink l f).pending = s.pending := rfl
@[simp] theorem State.updLink_cfg (l : Nat) (f : Link → Link) : (s.updLink l f).cfg = s.cfg := rfl
@[simp] theorem State.updLink_clk (l : Nat) (f : Link → Link) : (s.updLink l f).clk = s.clk := rfl
@[simp] theorem State.updLink_mem (l : Nat) (f : Link → Link) : (s.updLink l f).mem = s.mem := rfl
@[simp] theorem State.updLink_undef (l : Nat) (f : Link → Link) : (s.updLink l f).undef = s.undef := rfl
@[simp] theorem State.updLink_unseen (l : Nat) (f : Link → Link) : (s.updLink l f).unseen = s.unseen := rfl
@[simp] theorem State.updLink_hostMem (l : Nat) (f : Link → Link) : (s.updLink l f).hostMem = s.hostMem := rfl
@[simp] theorem State.updLink_hostUndef (l : Nat) (f : Link → Link) : (s.updLink l f).hostUndef = s.hostUndef := rfl
@[simp] theorem State.updLink_upsets (l : Nat) (f : Link → Link) : (s.updLink l f).upsets = s.upsets := rfl
@[simp] theorem State.updLink_halls (l : Nat) (f : Link → Link) : (s.updLink l f).halls = s.halls := rfl
@[simp] theorem State.updLink_gals (l : Nat) (f : Link → Link) : (s.updLink l f).gals = s.gals := rfl
@[simp] theorem State.updLink_xport (l : Nat) (f : Link → Link) : (s.updLink l f).xport = s.xport := rfl
@[simp] theorem State.updLink_mcs (l : Nat) (f : Link → Link) : (s.updLink l f).mcs = s.mcs := rfl
@[simp] theorem State.updLink_linkmap (l : Nat) (f : Link → Link) : (s.updLink l f).linkmap = s.linkmap := rfl
@[simp] theorem State.updLink_mesh2d (l : Nat) (f : Link → Link) : (s.updLink l f).mesh2d = s.mesh2d := rfl
@[simp] theorem State.updLink_bcnInt (l : Nat) (f : Link → Link) : (s.updLink l f).bcnInt = s.bcnInt := rfl
@[simp] theorem State.updLink_ports (l : Nat) (f : Link → Link) : (s.updLink l f).ports = s.ports := rfl
@[simp] theorem State.updLink_ctxs (l : Nat) (f : Link → Link) : (s.updLink l f).ctxs = s.ctxs := rfl
@[simp] theorem State.updLink_bays (l : Nat) (f : Link → Link) : (s.updLink l f).bays = s.bays := rfl
@[simp] theorem State.updLink_arcs (l : Nat) (f : Link → Link) : (s.updLink l f).arcs = s.arcs := rfl
@[simp] theorem State.updLink_relays (l : Nat) (f : Link → Link) : (s.updLink l f).relays = s.relays := rfl
@[simp] theorem State.updLink_inbox (l : Nat) (f : Link → Link) : (s.updLink l f).inbox = s.inbox := rfl
@[simp] theorem State.updLink_flights (l : Nat) (f : Link → Link) : (s.updLink l f).flights = s.flights := rfl
@[simp] theorem State.updLink_slices (l : Nat) (f : Link → Link) : (s.updLink l f).slices = s.slices := rfl
@[simp] theorem State.updLink_stair (l : Nat) (f : Link → Link) : (s.updLink l f).stair = s.stair := rfl
@[simp] theorem State.updLink_foyer (l : Nat) (f : Link → Link) : (s.updLink l f).foyer = s.foyer := rfl
@[simp] theorem State.updLink_queues (l : Nat) (f : Link → Link) : (s.updLink l f).queues = s.queues := rfl
@[simp] theorem State.updLink_chans (l : Nat) (f : Link → Link) : (s.updLink l f).chans = s.chans := rfl
@[simp] theorem State.updLink_tim (l : Nat) (f : Link → Link) : (s.updLink l f).tim = s.tim := rfl
@[simp] theorem State.updLink_flt (l : Nat) (f : Link → Link) : (s.updLink l f).flt = s.flt := rfl
@[simp] theorem State.updLink_pwr (l : Nat) (f : Link → Link) : (s.updLink l f).pwr = s.pwr := rfl
@[simp] theorem State.updLink_sec (l : Nat) (f : Link → Link) : (s.updLink l f).sec = s.sec := rfl
@[simp] theorem State.updLink_pins (l : Nat) (f : Link → Link) : (s.updLink l f).pins = s.pins := rfl
@[simp] theorem State.updLink_pub (l : Nat) (f : Link → Link) : (s.updLink l f).pub = s.pub := rfl
@[simp] theorem State.updLink_freeCtr (l : Nat) (f : Link → Link) : (s.updLink l f).freeCtr = s.freeCtr := rfl

theorem State.updLink_link (l : Nat) (f : Link → Link) (j : Nat) : (s.updLink l f).link j = if j = l then f (s.link l) else s.link j := SMap.get_set ..
@[simp] theorem State.updLink_link_self (l : Nat) (f : Link → Link) : (s.updLink l f).link l = f (s.link l) := SMap.get_set_self ..

/-! ### updCtx -/

@[simp] theorem State.updCtx_pending (c : Nat) (f : Ctx → Ctx) : (s.updCtx c f).pending = s.pending := rfl
@[simp] theorem State.updCtx_cfg (c : Nat) (f : Ctx → Ctx) : (s.updCtx c f).cfg = s.cfg := rfl
@[simp] theorem State.updCtx_clk (c : Nat) (f : Ctx → Ctx) : (s.updCtx c f).clk = s.clk := rfl
@[simp] theorem State.updCtx_mem (c : Nat) (f : Ctx → Ctx) : (s.updCtx c f).mem = s.mem := rfl
@[simp] theorem State.updCtx_undef (c : Nat) (f : Ctx → Ctx) : (s.updCtx c f).undef = s.undef := rfl
@[simp] theorem State.updCtx_unseen (c : Nat) (f : Ctx → Ctx) : (s.updCtx c f).unseen = s.unseen := rfl
@[simp] theorem State.updCtx_hostMem (c : Nat) (f : Ctx → Ctx) : (s.updCtx c f).hostMem = s.hostMem := rfl
@[simp] theorem State.updCtx_hostUndef (c : Nat) (f : Ctx → Ctx) : (s.updCtx c f).hostUndef = s.hostUndef := rfl
@[simp] theorem State.updCtx_upsets (c : Nat) (f : Ctx → Ctx) : (s.updCtx c f).upsets = s.upsets := rfl
@[simp] theorem State.updCtx_halls (c : Nat) (f : Ctx → Ctx) : (s.updCtx c f).halls = s.halls := rfl
@[simp] theorem State.updCtx_gals (c : Nat) (f : Ctx → Ctx) : (s.updCtx c f).gals = s.gals := rfl
@[simp] theorem State.updCtx_xport (c : Nat) (f : Ctx → Ctx) : (s.updCtx c f).xport = s.xport := rfl
@[simp] theorem State.updCtx_mcs (c : Nat) (f : Ctx → Ctx) : (s.updCtx c f).mcs = s.mcs := rfl
@[simp] theorem State.updCtx_linkmap (c : Nat) (f : Ctx → Ctx) : (s.updCtx c f).linkmap = s.linkmap := rfl
@[simp] theorem State.updCtx_mesh2d (c : Nat) (f : Ctx → Ctx) : (s.updCtx c f).mesh2d = s.mesh2d := rfl
@[simp] theorem State.updCtx_bcnInt (c : Nat) (f : Ctx → Ctx) : (s.updCtx c f).bcnInt = s.bcnInt := rfl
@[simp] theorem State.updCtx_ports (c : Nat) (f : Ctx → Ctx) : (s.updCtx c f).ports = s.ports := rfl
@[simp] theorem State.updCtx_links (c : Nat) (f : Ctx → Ctx) : (s.updCtx c f).links = s.links := rfl
@[simp] theorem State.updCtx_bays (c : Nat) (f : Ctx → Ctx) : (s.updCtx c f).bays = s.bays := rfl
@[simp] theorem State.updCtx_arcs (c : Nat) (f : Ctx → Ctx) : (s.updCtx c f).arcs = s.arcs := rfl
@[simp] theorem State.updCtx_relays (c : Nat) (f : Ctx → Ctx) : (s.updCtx c f).relays = s.relays := rfl
@[simp] theorem State.updCtx_inbox (c : Nat) (f : Ctx → Ctx) : (s.updCtx c f).inbox = s.inbox := rfl
@[simp] theorem State.updCtx_flights (c : Nat) (f : Ctx → Ctx) : (s.updCtx c f).flights = s.flights := rfl
@[simp] theorem State.updCtx_slices (c : Nat) (f : Ctx → Ctx) : (s.updCtx c f).slices = s.slices := rfl
@[simp] theorem State.updCtx_stair (c : Nat) (f : Ctx → Ctx) : (s.updCtx c f).stair = s.stair := rfl
@[simp] theorem State.updCtx_foyer (c : Nat) (f : Ctx → Ctx) : (s.updCtx c f).foyer = s.foyer := rfl
@[simp] theorem State.updCtx_queues (c : Nat) (f : Ctx → Ctx) : (s.updCtx c f).queues = s.queues := rfl
@[simp] theorem State.updCtx_chans (c : Nat) (f : Ctx → Ctx) : (s.updCtx c f).chans = s.chans := rfl
@[simp] theorem State.updCtx_tim (c : Nat) (f : Ctx → Ctx) : (s.updCtx c f).tim = s.tim := rfl
@[simp] theorem State.updCtx_flt (c : Nat) (f : Ctx → Ctx) : (s.updCtx c f).flt = s.flt := rfl
@[simp] theorem State.updCtx_pwr (c : Nat) (f : Ctx → Ctx) : (s.updCtx c f).pwr = s.pwr := rfl
@[simp] theorem State.updCtx_sec (c : Nat) (f : Ctx → Ctx) : (s.updCtx c f).sec = s.sec := rfl
@[simp] theorem State.updCtx_pins (c : Nat) (f : Ctx → Ctx) : (s.updCtx c f).pins = s.pins := rfl
@[simp] theorem State.updCtx_pub (c : Nat) (f : Ctx → Ctx) : (s.updCtx c f).pub = s.pub := rfl
@[simp] theorem State.updCtx_freeCtr (c : Nat) (f : Ctx → Ctx) : (s.updCtx c f).freeCtr = s.freeCtr := rfl

theorem State.updCtx_ctx (c : Nat) (f : Ctx → Ctx) (j : Nat) : (s.updCtx c f).ctx j = if j = c then f (s.ctx c) else s.ctx j := SMap.get_set ..
@[simp] theorem State.updCtx_ctx_self (c : Nat) (f : Ctx → Ctx) : (s.updCtx c f).ctx c = f (s.ctx c) := SMap.get_set_self ..

/-! ### updBay -/

@[simp] theorem State.updBay_pending (b : Nat) (f : Bay → Bay) : (s.updBay b f).pending = s.pending := rfl
@[simp] theorem State.updBay_cfg (b : Nat) (f : Bay → Bay) : (s.updBay b f).cfg = s.cfg := rfl
@[simp] theorem State.updBay_clk (b : Nat) (f : Bay → Bay) : (s.updBay b f).clk = s.clk := rfl
@[simp] theorem State.updBay_mem (b : Nat) (f : Bay → Bay) : (s.updBay b f).mem = s.mem := rfl
@[simp] theorem State.updBay_undef (b : Nat) (f : Bay → Bay) : (s.updBay b f).undef = s.undef := rfl
@[simp] theorem State.updBay_unseen (b : Nat) (f : Bay → Bay) : (s.updBay b f).unseen = s.unseen := rfl
@[simp] theorem State.updBay_hostMem (b : Nat) (f : Bay → Bay) : (s.updBay b f).hostMem = s.hostMem := rfl
@[simp] theorem State.updBay_hostUndef (b : Nat) (f : Bay → Bay) : (s.updBay b f).hostUndef = s.hostUndef := rfl
@[simp] theorem State.updBay_upsets (b : Nat) (f : Bay → Bay) : (s.updBay b f).upsets = s.upsets := rfl
@[simp] theorem State.updBay_halls (b : Nat) (f : Bay → Bay) : (s.updBay b f).halls = s.halls := rfl
@[simp] theorem State.updBay_gals (b : Nat) (f : Bay → Bay) : (s.updBay b f).gals = s.gals := rfl
@[simp] theorem State.updBay_xport (b : Nat) (f : Bay → Bay) : (s.updBay b f).xport = s.xport := rfl
@[simp] theorem State.updBay_mcs (b : Nat) (f : Bay → Bay) : (s.updBay b f).mcs = s.mcs := rfl
@[simp] theorem State.updBay_linkmap (b : Nat) (f : Bay → Bay) : (s.updBay b f).linkmap = s.linkmap := rfl
@[simp] theorem State.updBay_mesh2d (b : Nat) (f : Bay → Bay) : (s.updBay b f).mesh2d = s.mesh2d := rfl
@[simp] theorem State.updBay_bcnInt (b : Nat) (f : Bay → Bay) : (s.updBay b f).bcnInt = s.bcnInt := rfl
@[simp] theorem State.updBay_ports (b : Nat) (f : Bay → Bay) : (s.updBay b f).ports = s.ports := rfl
@[simp] theorem State.updBay_links (b : Nat) (f : Bay → Bay) : (s.updBay b f).links = s.links := rfl
@[simp] theorem State.updBay_ctxs (b : Nat) (f : Bay → Bay) : (s.updBay b f).ctxs = s.ctxs := rfl
@[simp] theorem State.updBay_arcs (b : Nat) (f : Bay → Bay) : (s.updBay b f).arcs = s.arcs := rfl
@[simp] theorem State.updBay_relays (b : Nat) (f : Bay → Bay) : (s.updBay b f).relays = s.relays := rfl
@[simp] theorem State.updBay_inbox (b : Nat) (f : Bay → Bay) : (s.updBay b f).inbox = s.inbox := rfl
@[simp] theorem State.updBay_flights (b : Nat) (f : Bay → Bay) : (s.updBay b f).flights = s.flights := rfl
@[simp] theorem State.updBay_slices (b : Nat) (f : Bay → Bay) : (s.updBay b f).slices = s.slices := rfl
@[simp] theorem State.updBay_stair (b : Nat) (f : Bay → Bay) : (s.updBay b f).stair = s.stair := rfl
@[simp] theorem State.updBay_foyer (b : Nat) (f : Bay → Bay) : (s.updBay b f).foyer = s.foyer := rfl
@[simp] theorem State.updBay_queues (b : Nat) (f : Bay → Bay) : (s.updBay b f).queues = s.queues := rfl
@[simp] theorem State.updBay_chans (b : Nat) (f : Bay → Bay) : (s.updBay b f).chans = s.chans := rfl
@[simp] theorem State.updBay_tim (b : Nat) (f : Bay → Bay) : (s.updBay b f).tim = s.tim := rfl
@[simp] theorem State.updBay_flt (b : Nat) (f : Bay → Bay) : (s.updBay b f).flt = s.flt := rfl
@[simp] theorem State.updBay_pwr (b : Nat) (f : Bay → Bay) : (s.updBay b f).pwr = s.pwr := rfl
@[simp] theorem State.updBay_sec (b : Nat) (f : Bay → Bay) : (s.updBay b f).sec = s.sec := rfl
@[simp] theorem State.updBay_pins (b : Nat) (f : Bay → Bay) : (s.updBay b f).pins = s.pins := rfl
@[simp] theorem State.updBay_pub (b : Nat) (f : Bay → Bay) : (s.updBay b f).pub = s.pub := rfl
@[simp] theorem State.updBay_freeCtr (b : Nat) (f : Bay → Bay) : (s.updBay b f).freeCtr = s.freeCtr := rfl

theorem State.updBay_bay (b : Nat) (f : Bay → Bay) (j : Nat) : (s.updBay b f).bay j = if j = b then f (s.bay b) else s.bay j := SMap.get_set ..
@[simp] theorem State.updBay_bay_self (b : Nat) (f : Bay → Bay) : (s.updBay b f).bay b = f (s.bay b) := SMap.get_set_self ..

/-! ### updArc -/

@[simp] theorem State.updArc_pending (a : Nat) (f : Arcade → Arcade) : (s.updArc a f).pending = s.pending := rfl
@[simp] theorem State.updArc_cfg (a : Nat) (f : Arcade → Arcade) : (s.updArc a f).cfg = s.cfg := rfl
@[simp] theorem State.updArc_clk (a : Nat) (f : Arcade → Arcade) : (s.updArc a f).clk = s.clk := rfl
@[simp] theorem State.updArc_mem (a : Nat) (f : Arcade → Arcade) : (s.updArc a f).mem = s.mem := rfl
@[simp] theorem State.updArc_undef (a : Nat) (f : Arcade → Arcade) : (s.updArc a f).undef = s.undef := rfl
@[simp] theorem State.updArc_unseen (a : Nat) (f : Arcade → Arcade) : (s.updArc a f).unseen = s.unseen := rfl
@[simp] theorem State.updArc_hostMem (a : Nat) (f : Arcade → Arcade) : (s.updArc a f).hostMem = s.hostMem := rfl
@[simp] theorem State.updArc_hostUndef (a : Nat) (f : Arcade → Arcade) : (s.updArc a f).hostUndef = s.hostUndef := rfl
@[simp] theorem State.updArc_upsets (a : Nat) (f : Arcade → Arcade) : (s.updArc a f).upsets = s.upsets := rfl
@[simp] theorem State.updArc_halls (a : Nat) (f : Arcade → Arcade) : (s.updArc a f).halls = s.halls := rfl
@[simp] theorem State.updArc_gals (a : Nat) (f : Arcade → Arcade) : (s.updArc a f).gals = s.gals := rfl
@[simp] theorem State.updArc_xport (a : Nat) (f : Arcade → Arcade) : (s.updArc a f).xport = s.xport := rfl
@[simp] theorem State.updArc_mcs (a : Nat) (f : Arcade → Arcade) : (s.updArc a f).mcs = s.mcs := rfl
@[simp] theorem State.updArc_linkmap (a : Nat) (f : Arcade → Arcade) : (s.updArc a f).linkmap = s.linkmap := rfl
@[simp] theorem State.updArc_mesh2d (a : Nat) (f : Arcade → Arcade) : (s.updArc a f).mesh2d = s.mesh2d := rfl
@[simp] theorem State.updArc_bcnInt (a : Nat) (f : Arcade → Arcade) : (s.updArc a f).bcnInt = s.bcnInt := rfl
@[simp] theorem State.updArc_ports (a : Nat) (f : Arcade → Arcade) : (s.updArc a f).ports = s.ports := rfl
@[simp] theorem State.updArc_links (a : Nat) (f : Arcade → Arcade) : (s.updArc a f).links = s.links := rfl
@[simp] theorem State.updArc_ctxs (a : Nat) (f : Arcade → Arcade) : (s.updArc a f).ctxs = s.ctxs := rfl
@[simp] theorem State.updArc_bays (a : Nat) (f : Arcade → Arcade) : (s.updArc a f).bays = s.bays := rfl
@[simp] theorem State.updArc_relays (a : Nat) (f : Arcade → Arcade) : (s.updArc a f).relays = s.relays := rfl
@[simp] theorem State.updArc_inbox (a : Nat) (f : Arcade → Arcade) : (s.updArc a f).inbox = s.inbox := rfl
@[simp] theorem State.updArc_flights (a : Nat) (f : Arcade → Arcade) : (s.updArc a f).flights = s.flights := rfl
@[simp] theorem State.updArc_slices (a : Nat) (f : Arcade → Arcade) : (s.updArc a f).slices = s.slices := rfl
@[simp] theorem State.updArc_stair (a : Nat) (f : Arcade → Arcade) : (s.updArc a f).stair = s.stair := rfl
@[simp] theorem State.updArc_foyer (a : Nat) (f : Arcade → Arcade) : (s.updArc a f).foyer = s.foyer := rfl
@[simp] theorem State.updArc_queues (a : Nat) (f : Arcade → Arcade) : (s.updArc a f).queues = s.queues := rfl
@[simp] theorem State.updArc_chans (a : Nat) (f : Arcade → Arcade) : (s.updArc a f).chans = s.chans := rfl
@[simp] theorem State.updArc_tim (a : Nat) (f : Arcade → Arcade) : (s.updArc a f).tim = s.tim := rfl
@[simp] theorem State.updArc_flt (a : Nat) (f : Arcade → Arcade) : (s.updArc a f).flt = s.flt := rfl
@[simp] theorem State.updArc_pwr (a : Nat) (f : Arcade → Arcade) : (s.updArc a f).pwr = s.pwr := rfl
@[simp] theorem State.updArc_sec (a : Nat) (f : Arcade → Arcade) : (s.updArc a f).sec = s.sec := rfl
@[simp] theorem State.updArc_pins (a : Nat) (f : Arcade → Arcade) : (s.updArc a f).pins = s.pins := rfl
@[simp] theorem State.updArc_pub (a : Nat) (f : Arcade → Arcade) : (s.updArc a f).pub = s.pub := rfl
@[simp] theorem State.updArc_freeCtr (a : Nat) (f : Arcade → Arcade) : (s.updArc a f).freeCtr = s.freeCtr := rfl

theorem State.updArc_arc (a : Nat) (f : Arcade → Arcade) (j : Nat) : (s.updArc a f).arc j = if j = a then f (s.arc a) else s.arc j := SMap.get_set ..
@[simp] theorem State.updArc_arc_self (a : Nat) (f : Arcade → Arcade) : (s.updArc a f).arc a = f (s.arc a) := SMap.get_set_self ..

/-! ### setFlight -/

@[simp] theorem State.setFlight_pending (n : Nat) (x : Option Flight) : (s.setFlight n x).pending = s.pending := rfl
@[simp] theorem State.setFlight_cfg (n : Nat) (x : Option Flight) : (s.setFlight n x).cfg = s.cfg := rfl
@[simp] theorem State.setFlight_clk (n : Nat) (x : Option Flight) : (s.setFlight n x).clk = s.clk := rfl
@[simp] theorem State.setFlight_mem (n : Nat) (x : Option Flight) : (s.setFlight n x).mem = s.mem := rfl
@[simp] theorem State.setFlight_undef (n : Nat) (x : Option Flight) : (s.setFlight n x).undef = s.undef := rfl
@[simp] theorem State.setFlight_unseen (n : Nat) (x : Option Flight) : (s.setFlight n x).unseen = s.unseen := rfl
@[simp] theorem State.setFlight_hostMem (n : Nat) (x : Option Flight) : (s.setFlight n x).hostMem = s.hostMem := rfl
@[simp] theorem State.setFlight_hostUndef (n : Nat) (x : Option Flight) : (s.setFlight n x).hostUndef = s.hostUndef := rfl
@[simp] theorem State.setFlight_upsets (n : Nat) (x : Option Flight) : (s.setFlight n x).upsets = s.upsets := rfl
@[simp] theorem State.setFlight_halls (n : Nat) (x : Option Flight) : (s.setFlight n x).halls = s.halls := rfl
@[simp] theorem State.setFlight_gals (n : Nat) (x : Option Flight) : (s.setFlight n x).gals = s.gals := rfl
@[simp] theorem State.setFlight_xport (n : Nat) (x : Option Flight) : (s.setFlight n x).xport = s.xport := rfl
@[simp] theorem State.setFlight_mcs (n : Nat) (x : Option Flight) : (s.setFlight n x).mcs = s.mcs := rfl
@[simp] theorem State.setFlight_linkmap (n : Nat) (x : Option Flight) : (s.setFlight n x).linkmap = s.linkmap := rfl
@[simp] theorem State.setFlight_mesh2d (n : Nat) (x : Option Flight) : (s.setFlight n x).mesh2d = s.mesh2d := rfl
@[simp] theorem State.setFlight_bcnInt (n : Nat) (x : Option Flight) : (s.setFlight n x).bcnInt = s.bcnInt := rfl
@[simp] theorem State.setFlight_ports (n : Nat) (x : Option Flight) : (s.setFlight n x).ports = s.ports := rfl
@[simp] theorem State.setFlight_links (n : Nat) (x : Option Flight) : (s.setFlight n x).links = s.links := rfl
@[simp] theorem State.setFlight_ctxs (n : Nat) (x : Option Flight) : (s.setFlight n x).ctxs = s.ctxs := rfl
@[simp] theorem State.setFlight_bays (n : Nat) (x : Option Flight) : (s.setFlight n x).bays = s.bays := rfl
@[simp] theorem State.setFlight_arcs (n : Nat) (x : Option Flight) : (s.setFlight n x).arcs = s.arcs := rfl
@[simp] theorem State.setFlight_relays (n : Nat) (x : Option Flight) : (s.setFlight n x).relays = s.relays := rfl
@[simp] theorem State.setFlight_inbox (n : Nat) (x : Option Flight) : (s.setFlight n x).inbox = s.inbox := rfl
@[simp] theorem State.setFlight_slices (n : Nat) (x : Option Flight) : (s.setFlight n x).slices = s.slices := rfl
@[simp] theorem State.setFlight_stair (n : Nat) (x : Option Flight) : (s.setFlight n x).stair = s.stair := rfl
@[simp] theorem State.setFlight_foyer (n : Nat) (x : Option Flight) : (s.setFlight n x).foyer = s.foyer := rfl
@[simp] theorem State.setFlight_queues (n : Nat) (x : Option Flight) : (s.setFlight n x).queues = s.queues := rfl
@[simp] theorem State.setFlight_chans (n : Nat) (x : Option Flight) : (s.setFlight n x).chans = s.chans := rfl
@[simp] theorem State.setFlight_tim (n : Nat) (x : Option Flight) : (s.setFlight n x).tim = s.tim := rfl
@[simp] theorem State.setFlight_flt (n : Nat) (x : Option Flight) : (s.setFlight n x).flt = s.flt := rfl
@[simp] theorem State.setFlight_pwr (n : Nat) (x : Option Flight) : (s.setFlight n x).pwr = s.pwr := rfl
@[simp] theorem State.setFlight_sec (n : Nat) (x : Option Flight) : (s.setFlight n x).sec = s.sec := rfl
@[simp] theorem State.setFlight_pins (n : Nat) (x : Option Flight) : (s.setFlight n x).pins = s.pins := rfl
@[simp] theorem State.setFlight_pub (n : Nat) (x : Option Flight) : (s.setFlight n x).pub = s.pub := rfl
@[simp] theorem State.setFlight_freeCtr (n : Nat) (x : Option Flight) : (s.setFlight n x).freeCtr = s.freeCtr := rfl

theorem State.setFlight_flight (n : Nat) (x : Option Flight) (j : Nat) : (s.setFlight n x).flight j = if j = n then x else s.flight j := SMap.get_set ..
@[simp] theorem State.setFlight_flight_self (n : Nat) (x : Option Flight) : (s.setFlight n x).flight n = x := SMap.get_set_self ..

/-! ### updSl -/

@[simp] theorem State.updSl_pending (k : Nat) (f : Slice → Slice) : (s.updSl k f).pending = s.pending := rfl
@[simp] theorem State.updSl_cfg (k : Nat) (f : Slice → Slice) : (s.updSl k f).cfg = s.cfg := rfl
@[simp] theorem State.updSl_clk (k : Nat) (f : Slice → Slice) : (s.updSl k f).clk = s.clk := rfl
@[simp] theorem State.updSl_mem (k : Nat) (f : Slice → Slice) : (s.updSl k f).mem = s.mem := rfl
@[simp] theorem State.updSl_undef (k : Nat) (f : Slice → Slice) : (s.updSl k f).undef = s.undef := rfl
@[simp] theorem State.updSl_unseen (k : Nat) (f : Slice → Slice) : (s.updSl k f).unseen = s.unseen := rfl
@[simp] theorem State.updSl_hostMem (k : Nat) (f : Slice → Slice) : (s.updSl k f).hostMem = s.hostMem := rfl
@[simp] theorem State.updSl_hostUndef (k : Nat) (f : Slice → Slice) : (s.updSl k f).hostUndef = s.hostUndef := rfl
@[simp] theorem State.updSl_upsets (k : Nat) (f : Slice → Slice) : (s.updSl k f).upsets = s.upsets := rfl
@[simp] theorem State.updSl_halls (k : Nat) (f : Slice → Slice) : (s.updSl k f).halls = s.halls := rfl
@[simp] theorem State.updSl_gals (k : Nat) (f : Slice → Slice) : (s.updSl k f).gals = s.gals := rfl
@[simp] theorem State.updSl_xport (k : Nat) (f : Slice → Slice) : (s.updSl k f).xport = s.xport := rfl
@[simp] theorem State.updSl_mcs (k : Nat) (f : Slice → Slice) : (s.updSl k f).mcs = s.mcs := rfl
@[simp] theorem State.updSl_linkmap (k : Nat) (f : Slice → Slice) : (s.updSl k f).linkmap = s.linkmap := rfl
@[simp] theorem State.updSl_mesh2d (k : Nat) (f : Slice → Slice) : (s.updSl k f).mesh2d = s.mesh2d := rfl
@[simp] theorem State.updSl_bcnInt (k : Nat) (f : Slice → Slice) : (s.updSl k f).bcnInt = s.bcnInt := rfl
@[simp] theorem State.updSl_ports (k : Nat) (f : Slice → Slice) : (s.updSl k f).ports = s.ports := rfl
@[simp] theorem State.updSl_links (k : Nat) (f : Slice → Slice) : (s.updSl k f).links = s.links := rfl
@[simp] theorem State.updSl_ctxs (k : Nat) (f : Slice → Slice) : (s.updSl k f).ctxs = s.ctxs := rfl
@[simp] theorem State.updSl_bays (k : Nat) (f : Slice → Slice) : (s.updSl k f).bays = s.bays := rfl
@[simp] theorem State.updSl_arcs (k : Nat) (f : Slice → Slice) : (s.updSl k f).arcs = s.arcs := rfl
@[simp] theorem State.updSl_relays (k : Nat) (f : Slice → Slice) : (s.updSl k f).relays = s.relays := rfl
@[simp] theorem State.updSl_inbox (k : Nat) (f : Slice → Slice) : (s.updSl k f).inbox = s.inbox := rfl
@[simp] theorem State.updSl_flights (k : Nat) (f : Slice → Slice) : (s.updSl k f).flights = s.flights := rfl
@[simp] theorem State.updSl_stair (k : Nat) (f : Slice → Slice) : (s.updSl k f).stair = s.stair := rfl
@[simp] theorem State.updSl_foyer (k : Nat) (f : Slice → Slice) : (s.updSl k f).foyer = s.foyer := rfl
@[simp] theorem State.updSl_queues (k : Nat) (f : Slice → Slice) : (s.updSl k f).queues = s.queues := rfl
@[simp] theorem State.updSl_chans (k : Nat) (f : Slice → Slice) : (s.updSl k f).chans = s.chans := rfl
@[simp] theorem State.updSl_tim (k : Nat) (f : Slice → Slice) : (s.updSl k f).tim = s.tim := rfl
@[simp] theorem State.updSl_flt (k : Nat) (f : Slice → Slice) : (s.updSl k f).flt = s.flt := rfl
@[simp] theorem State.updSl_pwr (k : Nat) (f : Slice → Slice) : (s.updSl k f).pwr = s.pwr := rfl
@[simp] theorem State.updSl_sec (k : Nat) (f : Slice → Slice) : (s.updSl k f).sec = s.sec := rfl
@[simp] theorem State.updSl_pins (k : Nat) (f : Slice → Slice) : (s.updSl k f).pins = s.pins := rfl
@[simp] theorem State.updSl_pub (k : Nat) (f : Slice → Slice) : (s.updSl k f).pub = s.pub := rfl
@[simp] theorem State.updSl_freeCtr (k : Nat) (f : Slice → Slice) : (s.updSl k f).freeCtr = s.freeCtr := rfl

theorem State.updSl_sl (k : Nat) (f : Slice → Slice) (j : Nat) : (s.updSl k f).sl j = if j = k then f (s.sl k) else s.sl j := SMap.get_set ..
@[simp] theorem State.updSl_sl_self (k : Nat) (f : Slice → Slice) : (s.updSl k f).sl k = f (s.sl k) := SMap.get_set_self ..

/-! ### updQueue -/

@[simp] theorem State.updQueue_pending (q : Nat) (f : Queue → Queue) : (s.updQueue q f).pending = s.pending := rfl
@[simp] theorem State.updQueue_cfg (q : Nat) (f : Queue → Queue) : (s.updQueue q f).cfg = s.cfg := rfl
@[simp] theorem State.updQueue_clk (q : Nat) (f : Queue → Queue) : (s.updQueue q f).clk = s.clk := rfl
@[simp] theorem State.updQueue_mem (q : Nat) (f : Queue → Queue) : (s.updQueue q f).mem = s.mem := rfl
@[simp] theorem State.updQueue_undef (q : Nat) (f : Queue → Queue) : (s.updQueue q f).undef = s.undef := rfl
@[simp] theorem State.updQueue_unseen (q : Nat) (f : Queue → Queue) : (s.updQueue q f).unseen = s.unseen := rfl
@[simp] theorem State.updQueue_hostMem (q : Nat) (f : Queue → Queue) : (s.updQueue q f).hostMem = s.hostMem := rfl
@[simp] theorem State.updQueue_hostUndef (q : Nat) (f : Queue → Queue) : (s.updQueue q f).hostUndef = s.hostUndef := rfl
@[simp] theorem State.updQueue_upsets (q : Nat) (f : Queue → Queue) : (s.updQueue q f).upsets = s.upsets := rfl
@[simp] theorem State.updQueue_halls (q : Nat) (f : Queue → Queue) : (s.updQueue q f).halls = s.halls := rfl
@[simp] theorem State.updQueue_gals (q : Nat) (f : Queue → Queue) : (s.updQueue q f).gals = s.gals := rfl
@[simp] theorem State.updQueue_xport (q : Nat) (f : Queue → Queue) : (s.updQueue q f).xport = s.xport := rfl
@[simp] theorem State.updQueue_mcs (q : Nat) (f : Queue → Queue) : (s.updQueue q f).mcs = s.mcs := rfl
@[simp] theorem State.updQueue_linkmap (q : Nat) (f : Queue → Queue) : (s.updQueue q f).linkmap = s.linkmap := rfl
@[simp] theorem State.updQueue_mesh2d (q : Nat) (f : Queue → Queue) : (s.updQueue q f).mesh2d = s.mesh2d := rfl
@[simp] theorem State.updQueue_bcnInt (q : Nat) (f : Queue → Queue) : (s.updQueue q f).bcnInt = s.bcnInt := rfl
@[simp] theorem State.updQueue_ports (q : Nat) (f : Queue → Queue) : (s.updQueue q f).ports = s.ports := rfl
@[simp] theorem State.updQueue_links (q : Nat) (f : Queue → Queue) : (s.updQueue q f).links = s.links := rfl
@[simp] theorem State.updQueue_ctxs (q : Nat) (f : Queue → Queue) : (s.updQueue q f).ctxs = s.ctxs := rfl
@[simp] theorem State.updQueue_bays (q : Nat) (f : Queue → Queue) : (s.updQueue q f).bays = s.bays := rfl
@[simp] theorem State.updQueue_arcs (q : Nat) (f : Queue → Queue) : (s.updQueue q f).arcs = s.arcs := rfl
@[simp] theorem State.updQueue_relays (q : Nat) (f : Queue → Queue) : (s.updQueue q f).relays = s.relays := rfl
@[simp] theorem State.updQueue_inbox (q : Nat) (f : Queue → Queue) : (s.updQueue q f).inbox = s.inbox := rfl
@[simp] theorem State.updQueue_flights (q : Nat) (f : Queue → Queue) : (s.updQueue q f).flights = s.flights := rfl
@[simp] theorem State.updQueue_slices (q : Nat) (f : Queue → Queue) : (s.updQueue q f).slices = s.slices := rfl
@[simp] theorem State.updQueue_stair (q : Nat) (f : Queue → Queue) : (s.updQueue q f).stair = s.stair := rfl
@[simp] theorem State.updQueue_foyer (q : Nat) (f : Queue → Queue) : (s.updQueue q f).foyer = s.foyer := rfl
@[simp] theorem State.updQueue_chans (q : Nat) (f : Queue → Queue) : (s.updQueue q f).chans = s.chans := rfl
@[simp] theorem State.updQueue_tim (q : Nat) (f : Queue → Queue) : (s.updQueue q f).tim = s.tim := rfl
@[simp] theorem State.updQueue_flt (q : Nat) (f : Queue → Queue) : (s.updQueue q f).flt = s.flt := rfl
@[simp] theorem State.updQueue_pwr (q : Nat) (f : Queue → Queue) : (s.updQueue q f).pwr = s.pwr := rfl
@[simp] theorem State.updQueue_sec (q : Nat) (f : Queue → Queue) : (s.updQueue q f).sec = s.sec := rfl
@[simp] theorem State.updQueue_pins (q : Nat) (f : Queue → Queue) : (s.updQueue q f).pins = s.pins := rfl
@[simp] theorem State.updQueue_pub (q : Nat) (f : Queue → Queue) : (s.updQueue q f).pub = s.pub := rfl
@[simp] theorem State.updQueue_freeCtr (q : Nat) (f : Queue → Queue) : (s.updQueue q f).freeCtr = s.freeCtr := rfl

theorem State.updQueue_queue (q : Nat) (f : Queue → Queue) (j : Nat) : (s.updQueue q f).queue j = if j = q then f (s.queue q) else s.queue j := SMap.get_set ..
@[simp] theorem State.updQueue_queue_self (q : Nat) (f : Queue → Queue) : (s.updQueue q f).queue q = f (s.queue q) := SMap.get_set_self ..

/-! ### updChan -/

@[simp] theorem State.updChan_pending (c : Nat) (f : Chan → Chan) : (s.updChan c f).pending = s.pending := rfl
@[simp] theorem State.updChan_cfg (c : Nat) (f : Chan → Chan) : (s.updChan c f).cfg = s.cfg := rfl
@[simp] theorem State.updChan_clk (c : Nat) (f : Chan → Chan) : (s.updChan c f).clk = s.clk := rfl
@[simp] theorem State.updChan_mem (c : Nat) (f : Chan → Chan) : (s.updChan c f).mem = s.mem := rfl
@[simp] theorem State.updChan_undef (c : Nat) (f : Chan → Chan) : (s.updChan c f).undef = s.undef := rfl
@[simp] theorem State.updChan_unseen (c : Nat) (f : Chan → Chan) : (s.updChan c f).unseen = s.unseen := rfl
@[simp] theorem State.updChan_hostMem (c : Nat) (f : Chan → Chan) : (s.updChan c f).hostMem = s.hostMem := rfl
@[simp] theorem State.updChan_hostUndef (c : Nat) (f : Chan → Chan) : (s.updChan c f).hostUndef = s.hostUndef := rfl
@[simp] theorem State.updChan_upsets (c : Nat) (f : Chan → Chan) : (s.updChan c f).upsets = s.upsets := rfl
@[simp] theorem State.updChan_halls (c : Nat) (f : Chan → Chan) : (s.updChan c f).halls = s.halls := rfl
@[simp] theorem State.updChan_gals (c : Nat) (f : Chan → Chan) : (s.updChan c f).gals = s.gals := rfl
@[simp] theorem State.updChan_xport (c : Nat) (f : Chan → Chan) : (s.updChan c f).xport = s.xport := rfl
@[simp] theorem State.updChan_mcs (c : Nat) (f : Chan → Chan) : (s.updChan c f).mcs = s.mcs := rfl
@[simp] theorem State.updChan_linkmap (c : Nat) (f : Chan → Chan) : (s.updChan c f).linkmap = s.linkmap := rfl
@[simp] theorem State.updChan_mesh2d (c : Nat) (f : Chan → Chan) : (s.updChan c f).mesh2d = s.mesh2d := rfl
@[simp] theorem State.updChan_bcnInt (c : Nat) (f : Chan → Chan) : (s.updChan c f).bcnInt = s.bcnInt := rfl
@[simp] theorem State.updChan_ports (c : Nat) (f : Chan → Chan) : (s.updChan c f).ports = s.ports := rfl
@[simp] theorem State.updChan_links (c : Nat) (f : Chan → Chan) : (s.updChan c f).links = s.links := rfl
@[simp] theorem State.updChan_ctxs (c : Nat) (f : Chan → Chan) : (s.updChan c f).ctxs = s.ctxs := rfl
@[simp] theorem State.updChan_bays (c : Nat) (f : Chan → Chan) : (s.updChan c f).bays = s.bays := rfl
@[simp] theorem State.updChan_arcs (c : Nat) (f : Chan → Chan) : (s.updChan c f).arcs = s.arcs := rfl
@[simp] theorem State.updChan_relays (c : Nat) (f : Chan → Chan) : (s.updChan c f).relays = s.relays := rfl
@[simp] theorem State.updChan_inbox (c : Nat) (f : Chan → Chan) : (s.updChan c f).inbox = s.inbox := rfl
@[simp] theorem State.updChan_flights (c : Nat) (f : Chan → Chan) : (s.updChan c f).flights = s.flights := rfl
@[simp] theorem State.updChan_slices (c : Nat) (f : Chan → Chan) : (s.updChan c f).slices = s.slices := rfl
@[simp] theorem State.updChan_stair (c : Nat) (f : Chan → Chan) : (s.updChan c f).stair = s.stair := rfl
@[simp] theorem State.updChan_foyer (c : Nat) (f : Chan → Chan) : (s.updChan c f).foyer = s.foyer := rfl
@[simp] theorem State.updChan_queues (c : Nat) (f : Chan → Chan) : (s.updChan c f).queues = s.queues := rfl
@[simp] theorem State.updChan_tim (c : Nat) (f : Chan → Chan) : (s.updChan c f).tim = s.tim := rfl
@[simp] theorem State.updChan_flt (c : Nat) (f : Chan → Chan) : (s.updChan c f).flt = s.flt := rfl
@[simp] theorem State.updChan_pwr (c : Nat) (f : Chan → Chan) : (s.updChan c f).pwr = s.pwr := rfl
@[simp] theorem State.updChan_sec (c : Nat) (f : Chan → Chan) : (s.updChan c f).sec = s.sec := rfl
@[simp] theorem State.updChan_pins (c : Nat) (f : Chan → Chan) : (s.updChan c f).pins = s.pins := rfl
@[simp] theorem State.updChan_pub (c : Nat) (f : Chan → Chan) : (s.updChan c f).pub = s.pub := rfl
@[simp] theorem State.updChan_freeCtr (c : Nat) (f : Chan → Chan) : (s.updChan c f).freeCtr = s.freeCtr := rfl

theorem State.updChan_chan (c : Nat) (f : Chan → Chan) (j : Nat) : (s.updChan c f).chan j = if j = c then f (s.chan c) else s.chan j := SMap.get_set ..
@[simp] theorem State.updChan_chan_self (c : Nat) (f : Chan → Chan) : (s.updChan c f).chan c = f (s.chan c) := SMap.get_set_self ..

/-! ### passTreads -/

@[simp] theorem State.passTreads_pending (n : Nat) : (s.passTreads n).pending = s.pending := rfl
@[simp] theorem State.passTreads_cfg (n : Nat) : (s.passTreads n).cfg = s.cfg := rfl
@[simp] theorem State.passTreads_mem (n : Nat) : (s.passTreads n).mem = s.mem := rfl
@[simp] theorem State.passTreads_undef (n : Nat) : (s.passTreads n).undef = s.undef := rfl
@[simp] theorem State.passTreads_unseen (n : Nat) : (s.passTreads n).unseen = s.unseen := rfl
@[simp] theorem State.passTreads_hostMem (n : Nat) : (s.passTreads n).hostMem = s.hostMem := rfl
@[simp] theorem State.passTreads_hostUndef (n : Nat) : (s.passTreads n).hostUndef = s.hostUndef := rfl
@[simp] theorem State.passTreads_upsets (n : Nat) : (s.passTreads n).upsets = s.upsets := rfl
@[simp] theorem State.passTreads_halls (n : Nat) : (s.passTreads n).halls = s.halls := rfl
@[simp] theorem State.passTreads_gals (n : Nat) : (s.passTreads n).gals = s.gals := rfl
@[simp] theorem State.passTreads_xport (n : Nat) : (s.passTreads n).xport = s.xport := rfl
@[simp] theorem State.passTreads_mcs (n : Nat) : (s.passTreads n).mcs = s.mcs := rfl
@[simp] theorem State.passTreads_linkmap (n : Nat) : (s.passTreads n).linkmap = s.linkmap := rfl
@[simp] theorem State.passTreads_mesh2d (n : Nat) : (s.passTreads n).mesh2d = s.mesh2d := rfl
@[simp] theorem State.passTreads_bcnInt (n : Nat) : (s.passTreads n).bcnInt = s.bcnInt := rfl
@[simp] theorem State.passTreads_ports (n : Nat) : (s.passTreads n).ports = s.ports := rfl
@[simp] theorem State.passTreads_links (n : Nat) : (s.passTreads n).links = s.links := rfl
@[simp] theorem State.passTreads_ctxs (n : Nat) : (s.passTreads n).ctxs = s.ctxs := rfl
@[simp] theorem State.passTreads_bays (n : Nat) : (s.passTreads n).bays = s.bays := rfl
@[simp] theorem State.passTreads_arcs (n : Nat) : (s.passTreads n).arcs = s.arcs := rfl
@[simp] theorem State.passTreads_relays (n : Nat) : (s.passTreads n).relays = s.relays := rfl
@[simp] theorem State.passTreads_inbox (n : Nat) : (s.passTreads n).inbox = s.inbox := rfl
@[simp] theorem State.passTreads_flights (n : Nat) : (s.passTreads n).flights = s.flights := rfl
@[simp] theorem State.passTreads_slices (n : Nat) : (s.passTreads n).slices = s.slices := rfl
@[simp] theorem State.passTreads_stair (n : Nat) : (s.passTreads n).stair = s.stair := rfl
@[simp] theorem State.passTreads_foyer (n : Nat) : (s.passTreads n).foyer = s.foyer := rfl
@[simp] theorem State.passTreads_queues (n : Nat) : (s.passTreads n).queues = s.queues := rfl
@[simp] theorem State.passTreads_chans (n : Nat) : (s.passTreads n).chans = s.chans := rfl
@[simp] theorem State.passTreads_tim (n : Nat) : (s.passTreads n).tim = s.tim := rfl
@[simp] theorem State.passTreads_flt (n : Nat) : (s.passTreads n).flt = s.flt := rfl
@[simp] theorem State.passTreads_pwr (n : Nat) : (s.passTreads n).pwr = s.pwr := rfl
@[simp] theorem State.passTreads_sec (n : Nat) : (s.passTreads n).sec = s.sec := rfl
@[simp] theorem State.passTreads_pins (n : Nat) : (s.passTreads n).pins = s.pins := rfl
@[simp] theorem State.passTreads_pub (n : Nat) : (s.passTreads n).pub = s.pub := rfl
@[simp] theorem State.passTreads_freeCtr (n : Nat) : (s.passTreads n).freeCtr = s.freeCtr := rfl

/-! ### waitUntil -/

/-- Waiting changes time alone. -/
theorem State.waitUntil_frame (t : Nat) : { s.waitUntil t with clk := s.clk } = s := by
  unfold State.waitUntil; split <;> rfl

/-- A tread that has come, or that a running counter reaches, has come after the wait. -/
theorem State.waitUntil_now (t : Nat) (h : t ≤ s.now ∨ (s.clk.running = true ∧ t < 2 ^ 64)) : (s.waitUntil t).now = max s.now t := by
  unfold State.waitUntil
  by_cases hn : s.now < t
  · obtain ⟨hr, ht⟩ := h.resolve_left (Nat.not_le.2 hn)
    rw [if_pos (by simp [hr, hn])]
    have e : (s.passTreads (t - s.now)).now = (s.clk.tread + BitVec.ofNat 64 (t - s.now)).toNat := by
      simp only [State.passTreads, State.now, hr, if_true]
    rw [e, BitVec.toNat_add, BitVec.toNat_ofNat]
    unfold State.now at hn ⊢
    omega
  · rw [if_neg (by simp [hn])]
    omega

@[simp] theorem State.waitUntil_pending (t : Nat) : (s.waitUntil t).pending = s.pending := by unfold State.waitUntil; split <;> rfl
@[simp] theorem State.waitUntil_cfg (t : Nat) : (s.waitUntil t).cfg = s.cfg := by unfold State.waitUntil; split <;> rfl
@[simp] theorem State.waitUntil_mem (t : Nat) : (s.waitUntil t).mem = s.mem := by unfold State.waitUntil; split <;> rfl
@[simp] theorem State.waitUntil_undef (t : Nat) : (s.waitUntil t).undef = s.undef := by unfold State.waitUntil; split <;> rfl
@[simp] theorem State.waitUntil_unseen (t : Nat) : (s.waitUntil t).unseen = s.unseen := by unfold State.waitUntil; split <;> rfl
@[simp] theorem State.waitUntil_hostMem (t : Nat) : (s.waitUntil t).hostMem = s.hostMem := by unfold State.waitUntil; split <;> rfl
@[simp] theorem State.waitUntil_hostUndef (t : Nat) : (s.waitUntil t).hostUndef = s.hostUndef := by unfold State.waitUntil; split <;> rfl
@[simp] theorem State.waitUntil_upsets (t : Nat) : (s.waitUntil t).upsets = s.upsets := by unfold State.waitUntil; split <;> rfl
@[simp] theorem State.waitUntil_halls (t : Nat) : (s.waitUntil t).halls = s.halls := by unfold State.waitUntil; split <;> rfl
@[simp] theorem State.waitUntil_gals (t : Nat) : (s.waitUntil t).gals = s.gals := by unfold State.waitUntil; split <;> rfl
@[simp] theorem State.waitUntil_xport (t : Nat) : (s.waitUntil t).xport = s.xport := by unfold State.waitUntil; split <;> rfl
@[simp] theorem State.waitUntil_mcs (t : Nat) : (s.waitUntil t).mcs = s.mcs := by unfold State.waitUntil; split <;> rfl
@[simp] theorem State.waitUntil_linkmap (t : Nat) : (s.waitUntil t).linkmap = s.linkmap := by unfold State.waitUntil; split <;> rfl
@[simp] theorem State.waitUntil_mesh2d (t : Nat) : (s.waitUntil t).mesh2d = s.mesh2d := by unfold State.waitUntil; split <;> rfl
@[simp] theorem State.waitUntil_bcnInt (t : Nat) : (s.waitUntil t).bcnInt = s.bcnInt := by unfold State.waitUntil; split <;> rfl
@[simp] theorem State.waitUntil_ports (t : Nat) : (s.waitUntil t).ports = s.ports := by unfold State.waitUntil; split <;> rfl
@[simp] theorem State.waitUntil_links (t : Nat) : (s.waitUntil t).links = s.links := by unfold State.waitUntil; split <;> rfl
@[simp] theorem State.waitUntil_ctxs (t : Nat) : (s.waitUntil t).ctxs = s.ctxs := by unfold State.waitUntil; split <;> rfl
@[simp] theorem State.waitUntil_bays (t : Nat) : (s.waitUntil t).bays = s.bays := by unfold State.waitUntil; split <;> rfl
@[simp] theorem State.waitUntil_arcs (t : Nat) : (s.waitUntil t).arcs = s.arcs := by unfold State.waitUntil; split <;> rfl
@[simp] theorem State.waitUntil_relays (t : Nat) : (s.waitUntil t).relays = s.relays := by unfold State.waitUntil; split <;> rfl
@[simp] theorem State.waitUntil_inbox (t : Nat) : (s.waitUntil t).inbox = s.inbox := by unfold State.waitUntil; split <;> rfl
@[simp] theorem State.waitUntil_flights (t : Nat) : (s.waitUntil t).flights = s.flights := by unfold State.waitUntil; split <;> rfl
@[simp] theorem State.waitUntil_slices (t : Nat) : (s.waitUntil t).slices = s.slices := by unfold State.waitUntil; split <;> rfl
@[simp] theorem State.waitUntil_stair (t : Nat) : (s.waitUntil t).stair = s.stair := by unfold State.waitUntil; split <;> rfl
@[simp] theorem State.waitUntil_foyer (t : Nat) : (s.waitUntil t).foyer = s.foyer := by unfold State.waitUntil; split <;> rfl
@[simp] theorem State.waitUntil_queues (t : Nat) : (s.waitUntil t).queues = s.queues := by unfold State.waitUntil; split <;> rfl
@[simp] theorem State.waitUntil_chans (t : Nat) : (s.waitUntil t).chans = s.chans := by unfold State.waitUntil; split <;> rfl
@[simp] theorem State.waitUntil_tim (t : Nat) : (s.waitUntil t).tim = s.tim := by unfold State.waitUntil; split <;> rfl
@[simp] theorem State.waitUntil_flt (t : Nat) : (s.waitUntil t).flt = s.flt := by unfold State.waitUntil; split <;> rfl
@[simp] theorem State.waitUntil_pwr (t : Nat) : (s.waitUntil t).pwr = s.pwr := by unfold State.waitUntil; split <;> rfl
@[simp] theorem State.waitUntil_sec (t : Nat) : (s.waitUntil t).sec = s.sec := by unfold State.waitUntil; split <;> rfl
@[simp] theorem State.waitUntil_pins (t : Nat) : (s.waitUntil t).pins = s.pins := by unfold State.waitUntil; split <;> rfl
@[simp] theorem State.waitUntil_pub (t : Nat) : (s.waitUntil t).pub = s.pub := by unfold State.waitUntil; split <;> rfl
@[simp] theorem State.waitUntil_freeCtr (t : Nat) : (s.waitUntil t).freeCtr = s.freeCtr := by unfold State.waitUntil; split <;> rfl

/-! ### Lists of updates -/

/-- What one step of a fold keeps, the fold keeps. -/
theorem State.each_keeps {α β : Type} (F : State → β) (l : List α) (f : State → α → State) (h : ∀ t a, F (f t a) = F t) :
    F (s.each l f) = F s := by
  unfold State.each
  induction l generalizing s with
  | nil => rfl
  | cons a l ih => rw [List.foldl_cons, ih, h]

/-- A property that one step of a fold keeps, the fold keeps. -/
theorem State.each_inv {α : Type} (P : State → Prop) (l : List α) (f : State → α → State) (h : ∀ t a, P t → P (f t a)) (hs : P s) :
    P (s.each l f) := by
  unfold State.each
  induction l generalizing s with
  | nil => exact hs
  | cons a l ih => exact ih _ (h s a hs)

end Sys2Proof.Machine
end

