-- ==== Sys2Proof/Laws/Memory.lean ====
section
/-! SUPPORT. Laws of part memory and host memory: a read after a write, after a range is cleared or made undefined, and that every
operation keeps the canonical form.
-/
namespace Sys2Proof.Machine

/-! ### Undefined ranges -/

/-- No range holds an address that has been cut out; elsewhere the ranges hold what they held. -/
theorem undefTag_undefCut (lo hi : Nat) (l : List (Nat × Nat × Nat)) (a : Nat) :
    undefTag (undefCut lo hi l) a = if lo ≤ a ∧ a < hi then none else undefTag l a := by
  induction l with
  | nil => simp [undefCut, undefTag]
  | cons r l ih =>
    obtain ⟨x, y, t⟩ := r
    have hc : undefCut lo hi ((x, y, t) :: l) =
        (if hi ≤ x ∨ y ≤ lo then [(x, y, t)]
          else (if x < lo then [(x, lo, t)] else []) ++ (if hi < y then [(hi, y, t)] else [])) ++ undefCut lo hi l := by
      simp [undefCut]
    rw [hc]
    by_cases h1 : hi ≤ x ∨ y ≤ lo
    · simp only [h1, if_true, List.cons_append, List.nil_append, undefTag, ih]
      (repeat' split) <;> first | rfl | (exfalso; omega)
    · by_cases h2 : x < lo <;> by_cases h3 : hi < y <;>
        simp only [h1, h2, h3, if_true, if_false, List.cons_append, List.nil_append, List.append_nil, undefTag, ih] <;>
        (repeat' split) <;> first | rfl | (exfalso; omega)

/-! ### Bytes -/

theorem get_memPut (m : List Host.Cell) (a : Nat) (bs : List Byte) (i : Nat) :
    SMap.get 0 (memPut m a bs) i = if h : a ≤ i ∧ i < a + bs.length then bs[i - a]'(by omega) else SMap.get 0 m i := by
  induction bs generalizing m a with
  | nil =>
    rw [dif_neg (by simp only [List.length_nil]; omega)]
    rfl
  | cons b bs ih =>
    rw [memPut, ih, SMap.get_set]
    by_cases h : a ≤ i ∧ i < a + (b :: bs).length
    · rw [dif_pos h]
      by_cases h1 : i = a
      · subst h1
        rw [dif_neg (by omega), if_pos rfl]
        simp
      · have h2 : a + 1 ≤ i ∧ i < a + 1 + bs.length := by simp only [List.length_cons] at h; omega
        rw [dif_pos h2]
        simp only [show i - a = i - (a + 1) + 1 by omega, List.getElem_cons_succ]
    · simp only [List.length_cons] at h
      rw [dif_neg (by omega), dif_neg (by simp only [List.length_cons]; omega), if_neg (by omega)]

/-- A read of a memory after bytes have been written from `a` on. -/
theorem memGet_put (m : List Host.Cell) (u : List (Nat × Nat × Nat)) (a : Nat) (bs : List Byte) (i : Nat) :
    memGet (memPut m a bs) (undefCut a (a + bs.length) u) i =
      if h : a ≤ i ∧ i < a + bs.length then bs[i - a]'(by omega) else memGet m u i := by
  unfold memGet
  rw [undefTag_undefCut]
  by_cases h : a ≤ i ∧ i < a + bs.length
  · rw [if_pos h, dif_pos h]
    simp only [get_memPut, h, and_self, dif_pos]
  · rw [if_neg h, dif_neg h]
    split
    · rfl
    · rw [get_memPut, dif_neg h]

theorem State.readByte_writeBytes (s : State) (a : Nat) (bs : List Byte) (i : Nat) :
    (s.writeBytes a bs).readByte i = if h : a ≤ i ∧ i < a + bs.length then bs[i - a]'(by omega) else s.readByte i :=
  memGet_put ..

/-- A write leaves every byte outside it. -/
theorem State.readByte_writeBytes_out (s : State) (a : Nat) (bs : List Byte) (i : Nat) (h : i < a ∨ a + bs.length ≤ i) :
    (s.writeBytes a bs).readByte i = s.readByte i := by
  rw [State.readByte_writeBytes, dif_neg (by omega)]

/-- A written byte reads as written. -/
theorem State.readByte_writeBytes_in (s : State) (a : Nat) (bs : List Byte) (i : Nat) (h : i < bs.length) :
    (s.writeBytes a bs).readByte (a + i) = bs[i] := by
  rw [State.readByte_writeBytes, dif_pos (by omega)]
  simp only [Nat.add_sub_cancel_left]

theorem get_cellsOutside (lo hi : Nat) (m : List Host.Cell) (i : Nat) :
    SMap.get 0 (cellsOutside lo hi m) i = if lo ≤ i ∧ i < hi then 0 else SMap.get 0 m i := by
  induction m with
  | nil => simp [cellsOutside, SMap.get]
  | cons c m ih =>
    obtain ⟨a, v⟩ := c
    have hc : cellsOutside lo hi ((a, v) :: m) = (if a < lo ∨ hi ≤ a then [(a, v)] else []) ++ cellsOutside lo hi m := by
      by_cases h : a < lo ∨ hi ≤ a <;> simp [cellsOutside, h]
    rw [hc]
    by_cases h : a < lo ∨ hi ≤ a
    · simp only [h, if_true, List.cons_append, List.nil_append, SMap.get, ih]
      (repeat' split) <;> first | rfl | (exfalso; omega)
    · simp only [h, if_false, List.nil_append, SMap.get, ih]
      (repeat' split) <;> first | rfl | (exfalso; omega)

theorem State.readByte_zeroRange (s : State) (lo hi i : Nat) :
    (s.zeroRange lo hi).readByte i = if lo ≤ i ∧ i < hi then 0 else s.readByte i := by
  unfold State.readByte State.zeroRange memGet
  simp only [undefTag_undefCut, get_cellsOutside]
  by_cases h : lo ≤ i ∧ i < hi
  · simp only [h, and_self, if_true]
  · simp only [h, if_false]

theorem State.readByte_undefine (s : State) (lo hi i : Nat) :
    (s.undefine lo hi).readByte i = if lo ≤ i ∧ i < hi then Config.freeByte (s.freeCtr + 1) i else s.readByte i := by
  unfold State.readByte State.undefine memGet
  simp only [undefTag, undefTag_undefCut, get_cellsOutside]
  by_cases h : lo ≤ i ∧ i < hi
  · simp only [h, and_self, if_true]
  · simp only [h, if_false]

/-! ### The canonical form -/

theorem wf_memPut (m : List Host.Cell) (a : Nat) (bs : List Byte) (h : Memory.wf m = true) : Memory.wf (memPut m a bs) = true := by
  induction bs generalizing m a with
  | nil => exact h
  | cons b bs ih => exact ih _ _ (SMap.wf_set 0 m a b h)

theorem wf_cellsOutside (lo hi : Nat) (m : List Host.Cell) (h : Memory.wf m = true) : Memory.wf (cellsOutside lo hi m) = true :=
  SMap.wf_filter 0 m _ h

theorem State.safe_writeBytes (s : State) (a : Nat) (bs : List Byte) (h : Safe s) : Safe (s.writeBytes a bs) :=
  ⟨wf_memPut _ _ _ h.1, h.2⟩
theorem State.safe_hostWrite (s : State) (a : Nat) (bs : List Byte) (h : Safe s) : Safe (s.hostWrite a bs) :=
  ⟨h.1, wf_memPut _ _ _ h.2⟩
theorem State.safe_undefine (s : State) (lo hi : Nat) (h : Safe s) : Safe (s.undefine lo hi) := ⟨wf_cellsOutside _ _ _ h.1, h.2⟩
theorem State.safe_zeroRange (s : State) (lo hi : Nat) (h : Safe s) : Safe (s.zeroRange lo hi) := ⟨wf_cellsOutside _ _ _ h.1, h.2⟩

end Sys2Proof.Machine
end

