-- ==== Sys2Proof/Laws/Ops.lean ====
section
/-! SUPPORT. What the shared operations can do: each changes only the fields that its law names, and keeps the memories in canonical
form. `sansX` forgets the fields that operations of one kind may write; equal remainders give equality of every other field.
-/
namespace Sys2Proof.Machine

/-! ### A choice among outcomes -/

/-- The outcome named is one of those that apply. -/
theorem oneOf_mem {α : Type} {seed : List Nat} {l : List α} {x : α} (h : oneOf seed l = some x) : x ∈ l := by
  match l with
  | [] => simp [oneOf] at h
  | [y] => simpa [oneOf, eq_comm] using h
  | y :: z :: r =>
    simp only [oneOf, Option.some.injEq] at h
    have hlt : Config.choice seed % (y :: z :: r).length < (y :: z :: r).length := Nat.mod_lt _ (by simp)
    rw [← h, List.getD_eq_getElem?_getD, List.getElem?_eq_getElem hlt]
    exact List.getElem_mem hlt

/-- Some outcome is named where one applies. -/
theorem oneOf_isSome {α : Type} (seed : List Nat) (l : List α) : (oneOf seed l).isSome = !l.isEmpty := by
  match l with
  | [] => rfl
  | [_] => rfl
  | _ :: _ :: _ => rfl


/-! ### Forgetting -/

/-- The state without what a fault record writes. -/
def State.sansRecord (s : State) : State := { s with mem := [], undef := [], flt := {}, slices := [] }

/-- The state without what a completion entry writes. -/
def State.sansEntry (s : State) : State := { s with hostMem := [], hostUndef := [], queues := [], sec := {}, foyer := {} }

/-- The state without what either writes. -/
def State.sansReport (s : State) : State := s.sansRecord.sansEntry

/-- The state without what a gallery's check errors write beyond a record. -/
def State.sansCheck (s : State) : State := { s.sansRecord with halls := [], gals := [], upsets := [], freeCtr := 0 }

variable (s : State)

theorem State.sansReport_eq_of_record {s t : State} (h : s.sansRecord = t.sansRecord) : s.sansReport = t.sansReport :=
  congrArg State.sansEntry h

theorem State.sansReport_eq_of_entry {s t : State} (h : s.sansEntry = t.sansEntry) : s.sansReport = t.sansReport := by
  have : s.sansEntry.sansRecord = t.sansEntry.sansRecord := congrArg State.sansRecord h
  exact this

/-! ### Records (12 R483 to R488) -/

/-- The error state of a slice changes nothing but the slices. -/
theorem State.setErr_sans (k c : Nat) : (s.setErr k c).sansRecord = s.sansRecord := by
  unfold State.setErr; split <;> rfl

theorem State.setErr_mem (k c : Nat) : (s.setErr k c).mem = s.mem ∧ (s.setErr k c).hostMem = s.hostMem := by
  unfold State.setErr; split <;> exact ⟨rfl, rfl⟩

/-- A written record changes memory, FLT_ and the slices alone. -/
theorem State.writeRecord_sans (r : FRec) : (s.writeRecord r).sansRecord = s.sansRecord := by
  unfold State.writeRecord
  simp only
  rw [State.each_keeps (F := State.sansRecord)]
  · split <;> rfl
  · intro t a; split <;> rfl

/-- Only memories matter to `Safe`. -/
theorem safe_of_eq {s t : State} (hm : t.mem = s.mem) (hh : t.hostMem = s.hostMem) (h : Safe s) : Safe t := by
  unfold Safe; rw [hm, hh]; exact h

theorem State.writeRecord_mem (r : FRec) : (s.writeRecord r).mem =
    if s.mainOn = true then
      memPut s.mem (s.ringAddr s.flt.seq.toNat) (bvBytes 64 (s.recordBits r (decide (2 ^ s.flt.ringLog.toNat ≤ s.flt.ringN))))
    else s.mem := by
  unfold State.writeRecord
  simp only
  rw [State.each_keeps (F := State.mem)]
  · split <;> rfl
  · intro t a; split <;> rfl

theorem State.writeRecord_hostMem (r : FRec) : (s.writeRecord r).hostMem = s.hostMem := by
  have h := congrArg State.hostMem (s.writeRecord_sans r); exact h

theorem State.safe_writeRecord (r : FRec) (h : Safe s) : Safe (s.writeRecord r) := by
  unfold Safe
  rw [State.writeRecord_mem, State.writeRecord_hostMem]
  refine ⟨?_, h.2⟩
  split
  · exact wf_memPut _ _ _ h.1
  · exact h.1

theorem State.crossing_sans (k : Nat) : (s.crossing k).1.sansRecord = s.sansRecord := by
  unfold State.crossing; dsimp only; (repeat' split) <;> rfl

theorem State.crossing_mem (k : Nat) : (s.crossing k).1.mem = s.mem ∧ (s.crossing k).1.hostMem = s.hostMem := by
  unfold State.crossing; dsimp only; (repeat' split) <;> exact ⟨rfl, rfl⟩

/-- A raised fault changes memory, FLT_ and the slices alone. -/
theorem State.raise_sans (r : FRec) : (s.raise r).sansRecord = s.sansRecord := by
  have h : (s.each r.errs (fun s k => s.setErr k r.cls)).sansRecord = s.sansRecord :=
    State.each_keeps s State.sansRecord _ _ (fun t a => t.setErr_sans a r.cls)
  unfold State.raise
  simp only
  split
  · rw [State.writeRecord_sans, h]
  · split
    · rw [State.writeRecord_sans, State.crossing_sans, h]
    · rw [State.crossing_sans, h]

theorem State.safe_raise (r : FRec) (h : Safe s) : Safe (s.raise r) := by
  have h1 : Safe (s.each r.errs (fun s k => s.setErr k r.cls)) := State.each_inv s Safe _ _ (fun t a ht =>
    safe_of_eq (t.setErr_mem a r.cls).1 (t.setErr_mem a r.cls).2 ht) h
  have h2 : ∀ (t : State) k, Safe t → Safe (t.crossing k).1 := fun t k ht => safe_of_eq (t.crossing_mem k).1 (t.crossing_mem k).2 ht
  unfold State.raise
  simp only
  split
  · exact State.safe_writeRecord _ _ h1
  · split
    · exact State.safe_writeRecord _ _ (h2 _ _ h1)
    · exact h2 _ _ h1

@[simp] theorem State.raise_pending (r : FRec) : (s.raise r).pending = s.pending := by
  have h := congrArg State.pending (s.raise_sans r); exact h
@[simp] theorem State.raise_clk (r : FRec) : (s.raise r).clk = s.clk := by
  have h := congrArg State.clk (s.raise_sans r); exact h
@[simp] theorem State.raise_halls (r : FRec) : (s.raise r).halls = s.halls := by
  have h := congrArg State.halls (s.raise_sans r); exact h
@[simp] theorem State.raise_gals (r : FRec) : (s.raise r).gals = s.gals := by
  have h := congrArg State.gals (s.raise_sans r); exact h
@[simp] theorem State.raise_queues (r : FRec) : (s.raise r).queues = s.queues := by
  have h := congrArg State.queues (s.raise_sans r); exact h

/-! ### Completions and notices (11 R453 to R458) -/

theorem State.vector_sans (q : Nat) : (s.vector q).sansEntry = s.sansEntry := by
  unfold State.vector; split <;> rfl

theorem State.vector_host (q : Nat) : (s.vector q).mem = s.mem ∧ (s.vector q).hostMem = s.hostMem
    ∧ (s.vector q).hostUndef = s.hostUndef ∧ (s.vector q).queues = s.queues := by
  unfold State.vector; split <;> exact ⟨rfl, rfl, rfl, rfl⟩

/-- Where the next completion entry of queue `n` stands in host memory. -/
def State.entryAddr (s : State) (n : Nat) : Nat :=
  (s.queue n).cqb.toNat + (s.queue n).cqW.toNat % 2 ^ (s.queue n).cqLog.toNat * 128

/-- The state with the bytes of an entry in the ring of queue `n`, before the alert bit and the vector. -/
def State.entered (s : State) (n : Nat) (bs : List Byte) : State :=
  (s.hostWrite (s.entryAddr n) bs).updQueue n (fun q => { q with cqW := q.cqW + 1 })

/-- A notice on the operator queue raises its alert bit. -/
def State.alerted (s : State) (n : Nat) (e : Entry) : State :=
  if e.notice && n = 0 then { s with sec := { s.sec with alert := s.sec.alert ||| 2 } } else s

theorem State.alerted_sans (n : Nat) (e : Entry) : (s.alerted n e).sansEntry = s.sansEntry := by
  unfold State.alerted; split <;> rfl

theorem State.alerted_host (n : Nat) (e : Entry) : (s.alerted n e).mem = s.mem ∧ (s.alerted n e).hostMem = s.hostMem
    ∧ (s.alerted n e).hostUndef = s.hostUndef ∧ (s.alerted n e).queues = s.queues := by
  unfold State.alerted; split <;> exact ⟨rfl, rfl, rfl, rfl⟩

theorem State.hostWrite_sans (a : Nat) (bs : List Byte) : (s.hostWrite a bs).sansEntry = s.sansEntry := rfl

theorem State.updQueue_sans (n : Nat) (f : Queue → Queue) : (s.updQueue n f).sansEntry = s.sansEntry := rfl

theorem State.entered_sans (n : Nat) (bs : List Byte) : (s.entered n bs).sansEntry = s.sansEntry := rfl

theorem State.safe_entered (n : Nat) (bs : List Byte) (h : Safe s) : Safe (s.entered n bs) :=
  safe_of_eq (s := s.hostWrite (s.entryAddr n) bs) rfl rfl (s.safe_hostWrite _ _ h)

theorem State.entered_queue (n : Nat) (bs : List Byte) :
    (s.entered n bs).queue n = { s.queue n with cqW := (s.queue n).cqW + 1 } :=
  State.updQueue_queue_self ..

/-- A completion on a queue in error or idle leaves the state; on another queue it puts its entry in the ring. -/
theorem State.complete_eq (n : Nat) (e : Entry) (irq : Bool) : s.complete n e irq =
    if ((s.queue n).err || (s.queue n).idle) = true then s
    else if irq = true then ((s.entered n (s.entryBytes n e)).alerted n e).vector n
    else (s.entered n (s.entryBytes n e)).alerted n e := rfl

/-- A completion entry changes host memory, the queues, the alert bits and the vectors alone. -/
theorem State.complete_sans (n : Nat) (e : Entry) (irq : Bool) : (s.complete n e irq).sansEntry = s.sansEntry := by
  rw [State.complete_eq]
  generalize s.entryBytes n e = bs
  have h := (State.alerted_sans (s.entered n bs) n e).trans (s.entered_sans n bs)
  generalize (s.entered n bs).alerted n e = t at h ⊢
  split
  · rfl
  · split
    · rw [State.vector_sans, h]
    · exact h

theorem State.safe_complete (n : Nat) (e : Entry) (irq : Bool) (h : Safe s) : Safe (s.complete n e irq) := by
  rw [State.complete_eq]
  generalize s.entryBytes n e = bs
  have h3 : Safe ((s.entered n bs).alerted n e) :=
    safe_of_eq (State.alerted_host _ n e).1 (State.alerted_host _ n e).2.1 (s.safe_entered n bs h)
  generalize (s.entered n bs).alerted n e = t at h3 ⊢
  split
  · exact h
  · split
    · exact safe_of_eq (t.vector_host n).1 (t.vector_host n).2.1 h3
    · exact h3

theorem State.noticeOn_sans (n : Nat) (x : Notice) : (s.noticeOn n x).sansEntry = s.sansEntry := by
  unfold State.noticeOn
  simp only
  split
  · rfl
  · split
    · rfl
    · exact State.complete_sans ..

theorem State.safe_noticeOn (n : Nat) (x : Notice) (h : Safe s) : Safe (s.noticeOn n x) := by
  unfold State.noticeOn
  simp only
  split
  · exact h
  · split
    · exact h
    · exact State.safe_complete _ _ _ _ h

/-- A notice changes host memory, the queues, the alert bits and the vectors alone. -/
theorem State.notice_sans (kind : Byte) (detail : Word64) (slices : List Nat) (r : Option (BitVec 512)) :
    (s.notice kind detail slices r).sansEntry = s.sansEntry :=
  State.each_keeps s State.sansEntry _ _ (fun t a => t.noticeOn_sans a _)

theorem State.safe_notice (kind : Byte) (detail : Word64) (slices : List Nat) (r : Option (BitVec 512)) (h : Safe s) :
    Safe (s.notice kind detail slices r) :=
  State.each_inv s Safe _ _ (fun t a ht => t.safe_noticeOn a _ ht) h

/-- A record with its notice. -/
theorem State.raiseNotice_sans (r : FRec) (kind : Byte) (detail : Word64) (slices : List Nat) :
    (s.raiseNotice r kind detail slices).sansReport = s.sansReport :=
  (State.sansReport_eq_of_entry (State.notice_sans _ _ _ _ _)).trans (State.sansReport_eq_of_record (s.raise_sans r))

theorem State.safe_raiseNotice (r : FRec) (kind : Byte) (detail : Word64) (slices : List Nat) (h : Safe s) :
    Safe (s.raiseNotice r kind detail slices) := State.safe_notice _ _ _ _ _ (s.safe_raise r h)

/-- A descriptor that completes changes host memory, the queues, the alert bits and the vectors alone. -/
theorem State.finish_sans (h : DescHdr) (op : Byte) (st : BitVec 16) (d : Word64) (o : Word) :
    (s.finish h op st d o).sansEntry = s.sansEntry := s.complete_sans ..

theorem State.safe_finish (h : DescHdr) (op : Byte) (st : BitVec 16) (d : Word64) (o : Word) (hs : Safe s) :
    Safe (s.finish h op st d o) := s.safe_complete _ _ _ hs

theorem State.finishXfer_sans (h : DescHdr) (op : Byte) (d : DmaDesc) (st : BitVec 16) (x : Word64) (c : Option Word64) :
    (s.finishXfer h op d st x c).sansEntry = s.sansEntry := s.complete_sans ..

theorem State.safe_finishXfer (h : DescHdr) (op : Byte) (d : DmaDesc) (st : BitVec 16) (x : Word64) (c : Option Word64) (hs : Safe s) :
    Safe (s.finishXfer h op d st x c) := s.safe_complete _ _ _ hs

theorem State.finishRec_sans (h : DescHdr) (op : Byte) (st : BitVec 16) (d : Word64) (r : FRec) (o : Word) (c : Byte) :
    (s.finishRec h op st d r o c).sansReport = s.sansReport :=
  (State.sansReport_eq_of_entry (State.complete_sans (s.raise r) _ _ _)).trans (State.sansReport_eq_of_record (s.raise_sans r))

theorem State.safe_finishRec (h : DescHdr) (op : Byte) (st : BitVec 16) (d : Word64) (r : FRec) (o : Word) (c : Byte) (hs : Safe s) :
    Safe (s.finishRec h op st d r o c) := State.safe_complete _ _ _ _ (s.safe_raise r hs)

theorem State.refuse_sans (h : DescHdr) (op : Byte) (o : Word) (c : Byte) : (s.refuse h op o c).sansReport = s.sansReport :=
  s.finishRec_sans ..

theorem State.safe_refuse (h : DescHdr) (op : Byte) (o : Word) (c : Byte) (hs : Safe s) : Safe (s.refuse h op o c) :=
  s.safe_finishRec _ _ _ _ _ _ _ hs

@[simp] theorem State.complete_pending (n : Nat) (e : Entry) (irq : Bool) : (s.complete n e irq).pending = s.pending := by
  have h := congrArg State.pending (s.complete_sans n e irq); exact h
@[simp] theorem State.notice_pending (k : Byte) (d : Word64) (l : List Nat) (r : Option (BitVec 512)) :
    (s.notice k d l r).pending = s.pending := by
  have h := congrArg State.pending (s.notice_sans k d l r); exact h
@[simp] theorem State.raiseNotice_pending (r : FRec) (k : Byte) (d : Word64) (l : List Nat) :
    (s.raiseNotice r k d l).pending = s.pending := by
  have h := congrArg State.pending (s.raiseNotice_sans r k d l); exact h
@[simp] theorem State.finish_pending (h : DescHdr) (op : Byte) (st : BitVec 16) (d : Word64) (o : Word) :
    (s.finish h op st d o).pending = s.pending := by
  have h := congrArg State.pending (s.finish_sans h op st d o); exact h
@[simp] theorem State.finishXfer_pending (h : DescHdr) (op : Byte) (d : DmaDesc) (st : BitVec 16) (x : Word64) (c : Option Word64) :
    (s.finishXfer h op d st x c).pending = s.pending := by
  have h := congrArg State.pending (s.finishXfer_sans h op d st x c); exact h
@[simp] theorem State.finishRec_pending (h : DescHdr) (op : Byte) (st : BitVec 16) (d : Word64) (r : FRec) (o : Word) (c : Byte) :
    (s.finishRec h op st d r o c).pending = s.pending := by
  have h := congrArg State.pending (s.finishRec_sans h op st d r o c); exact h
@[simp] theorem State.refuse_pending (h : DescHdr) (op : Byte) (o : Word) (c : Byte) : (s.refuse h op o c).pending = s.pending := by
  have h := congrArg State.pending (s.refuse_sans h op o c); exact h

/-! ### Check errors (03 R92, R93, R120) -/

theorem State.undefine_sansCheck (lo hi : Nat) : (s.undefine lo hi).sansCheck = s.sansCheck := rfl

theorem State.updGal_sansCheck (gi : Nat) (f : Gallery → Gallery) : (s.updGal gi f).sansCheck = s.sansCheck := rfl

theorem State.updHall_sansCheck (ph : Nat) (f : Hall → Hall) : (s.updHall ph f).sansCheck = s.sansCheck := rfl

theorem State.startWalk_sans (gi : Nat) : (s.startWalk gi).sansCheck = s.sansCheck := by
  unfold State.startWalk
  dsimp only
  rw [State.updHall_sansCheck, State.updGal_sansCheck, State.undefine_sansCheck]

/-- A gallery that becomes suspect changes its hall, its gallery and memory alone. -/
theorem State.markSuspect_sans (gi : Nat) : (s.markSuspect gi).sansCheck = s.sansCheck := by
  unfold State.markSuspect
  dsimp only
  split
  · rw [State.startWalk_sans, State.updGal_sansCheck]
  · exact State.updGal_sansCheck ..

theorem State.safe_markSuspect (gi : Nat) (h : Safe s) : Safe (s.markSuspect gi) := by
  unfold State.markSuspect State.startWalk
  simp only
  split
  · exact State.safe_undefine _ _ _ h
  · exact h

theorem State.countCe_sans (gi kind n : Nat) : (s.countCe gi kind n).sansCheck = s.sansCheck := by
  unfold State.countCe; split <;> rfl

theorem State.safe_countCe (gi kind n : Nat) (h : Safe s) : Safe (s.countCe gi kind n) := by
  unfold State.countCe; split <;> exact h

theorem State.raise_sansCheck (r : FRec) : (s.raise r).sansCheck = s.sansCheck :=
  congrArg (fun t : State => { t with halls := [], gals := [], upsets := [], freeCtr := 0 }) (s.raise_sans r)

/-- The check of a line that is read changes memory, FLT_, the slices, the halls, the galleries and the check errors alone. -/
theorem State.checkStore_sans (w : Who) (line : Nat) : (s.checkStore w line).sansCheck = s.sansCheck := by
  unfold State.checkStore
  simp only
  split
  · rfl
  · split
    · rw [State.raise_sansCheck, State.markSuspect_sans]
      exact State.countCe_sans ..
    · exact State.countCe_sans ..

theorem State.safe_checkStore (w : Who) (line : Nat) (h : Safe s) : Safe (s.checkStore w line) := by
  unfold State.checkStore
  simp only
  split
  · exact h
  · have h1 : Safe (({ s with upsets := s.upsets.filter (fun u => !inStoreLine (galIdx w.ph w.g) line u.site) } : State).countCe
        (galIdx w.ph w.g) 0 ((s.upsets.filter (fun u => inStoreLine (galIdx w.ph w.g) line u.site)).filter (fun u => u.ce)).length) :=
      State.safe_countCe _ _ _ _ h
    split
    · exact State.safe_raise _ _ (State.safe_markSuspect _ _ h1)
    · exact h1

@[simp] theorem State.checkStore_pending (w : Who) (line : Nat) : (s.checkStore w line).pending = s.pending := by
  have h := congrArg State.pending (s.checkStore_sans w line); exact h

/-- Bytes written to a store change memory, the galleries and the check errors alone. -/
theorem State.storeWrite_sans (gi off : Nat) (bs : List Byte) (p : Bool) : (s.storeWrite gi off bs p).sansCheck = s.sansCheck := by
  unfold State.storeWrite State.freshLine
  simp only
  split
  · split <;> rfl
  · rfl

theorem State.safe_storeWrite (gi off : Nat) (bs : List Byte) (p : Bool) (h : Safe s) : Safe (s.storeWrite gi off bs p) := by
  unfold State.storeWrite State.freshLine
  simp only
  split
  · split <;> exact State.safe_writeBytes _ _ _ h
  · exact State.safe_writeBytes _ _ _ h

end Sys2Proof.Machine
end

