-- ==== Sys2Proof/Tests/Slice0.lean ====
section
/-! SUPPORT. Tests: the checks of well-formedness on ill-formed terms, a witness for the hypotheses of every statement, and a
few results that the spec prints.
-/
namespace Sys2Proof.Tests
open Sys2Proof.Machine
set_option Elab.async false

/-! ### States -/

/-- A part in service: main power on, booted, its tread counter running. -/
def on : State := { State.reset with
  clk := { tread := 1000000, running := true }
  pwr := { State.reset.pwr with state := 3, in54 := true, in12 := true }
  sec := { State.reset.sec with boot := 2, booted := true, healthSet := true }
  tim := { State.reset.tim with locked := true, everLocked := true } }

/-- The same with its tread counter standing still. -/
def still : State := { on with clk := { on.clk with running := false } }

/-- Hall 3 mapped to slice 5 as virtual hall 2, in state `st`. -/
def hallIn (st : HallSt) (s : State) : State :=
  s.updHall 3 (fun h => { h with st, reg := { h.reg with vmap := 0x80050002 } })

/-- Slice 5 admitted with its epoch at 500,000, in phase `p`. -/
def sliceIn (p : LandPhase) (s : State) : State :=
  s.updSl 5 (fun x => { x with admitted := true, phase := p, epoch := 500000, epochSet := true })

/-- Slice 5 at a landing that began at slice tread 400,000 and has width 1,024 and report tread 512. -/
def landing (s : State) : State :=
  (sliceIn .landing s).updSl 5 (fun x => { x with
    started := true, land := { x.land with ord := 7, a := 400000, w := 1024, d := 512 } })

/-- A gallery operation can issue on gallery 4 of hall 3. -/
def running : State := hallIn .running (sliceIn .running on)

/-! ### Well-formedness: one ill-formed term for each check -/

def vf : VecF := ⟨1, 2, 3, 0, 0, false, 0, false⟩
def cf : CvtF := ⟨1, 2, 0, 0, 0, false, 0, false, 0, false⟩
def mm : MmaF := ⟨0, 4, 1, 0, false, false, false, 0, false, 0⟩

theorem wf_refuses_matrix : (Instr.mldt 0 0 ⟨15, 1, 0, false, false, false⟩ []).wf = false
    ∧ (Instr.mma 0 0 { mm with fmt := 15 } []).wf = false ∧ (Instr.mma 0 0 { mm with vr := 1 } []).wf = false
    ∧ (Instr.mma 0 0 { mm with rv := true } []).wf = false
    ∧ (Instr.mrd 0 0 ⟨0, 1, 3, 0, false, false, false, 0, false, 0⟩ []).wf = false
    ∧ (Instr.mrd 0 0 ⟨0, 1, 0, 6, false, false, false, 0, false, 0⟩ []).wf = false := by decide +kernel

theorem wf_refuses_vector : (Instr.iadd 0 0 { vf with vc := 1 }).wf = false ∧ (Instr.iadd 0 0 { vf with rnd := 1 }).wf = false
    ∧ (Instr.iadd 0 0 { vf with sat := true }).wf = false ∧ (Instr.mov 0 0 vf).wf = false
    ∧ (Instr.icmpeq 0 0 { vf with vd := 8 }).wf = false ∧ (Instr.fadd 0 0 { vf with rnd := 6 }).wf = false
    ∧ (Instr.splat 0 0 { vf with va := 16, vb := 0 }).wf = false
    ∧ (Instr.cvtn 0 0 { cf with fmt := 15 }).wf = false ∧ (Instr.cvtf 0 0 { cf with rnd := 7 }).wf = false := by decide +kernel

theorem wf_refuses_stores_and_control : (Instr.ldl 0 0 ⟨1, false, 0, false, 0⟩ []).wf = false
    ∧ (Instr.ldx 0 0 ⟨16, false, 0, false, 0⟩ []).wf = false ∧ (Instr.stl 0 0 ⟨1, 0, false, 0, false, 0⟩).wf = false
    ∧ (Instr.stx 0 0 ⟨1, 0, false, 1, false, 0⟩).wf = false
    ∧ (Instr.hld 0 0 ⟨1, 2, 0, 9, false⟩).wf = false ∧ (Instr.hst 0 0 ⟨1, 2, 0, 9, false⟩ []).wf = false
    ∧ (Instr.psetn 0 0 ⟨1, 65⟩).wf = false ∧ (Instr.pnot 0 0 ⟨1, 2, 1⟩).wf = false
    ∧ (Instr.token 0 0 ⟨0, 1, true, 30⟩).wf = false ∧ (Instr.token 0 0 ⟨0, 1, false, 1⟩).wf = false
    ∧ (Instr.bval 0 0 ⟨1, 1, true, 31⟩).wf = false ∧ (Instr.bval 0 0 ⟨1, 1, false, 2⟩).wf = false
    ∧ (Instr.land 0 0 ⟨62, 10, false, false, false, false⟩).wf = false
    ∧ (Instr.land 0 0 ⟨63, 65, false, false, false, false⟩).wf = false
    ∧ (Instr.land 0 0 ⟨63, 10, false, false, true, false⟩).wf = false := by decide +kernel

theorem wf_takes_others : (Instr.iadd 0 0 vf).wf = true ∧ (Instr.mma 0 0 mm []).wf = true ∧ (Instr.landingEnd 5).wf = true
    ∧ (Instr.stx 0 0 ⟨16, 0, false, 0, false, 0⟩).wf = true
    ∧ (Instr.land 0 0 ⟨63, 64, true, false, true, true⟩).wf = true := by decide +kernel

/-- The opcode table gives no row bits: no word spells a command. -/
theorem no_word_spells_a_command : decodeTableWord 16 0x1234 = none ∧ State.withFetchWord on 16 0x1234 = on := ⟨rfl, rfl⟩

/-! ### Witnesses: gallery operations -/

/-- Operations of gallery 4 of hall 3. -/
def isd (op : GOp) : Issued := ⟨3, 4, op, []⟩

theorem witness_step : (State.reset.pending = [] ∧ State.reset.pwr.state ≠ 4#3 ∧ State.reset.clk.frac < 8) ∧ Safe State.reset := by
  unfold Safe; decide +kernel

theorem witness_exec_leaves_the_queue : ∃ t, exec .idcode on = .next t := ⟨_, rfl⟩

theorem witness_issue : (Instr.xaddi 3 4 ⟨2, 1, 8⟩).issued = some (isd (.xaddi ⟨2, 1, 8⟩)) ∧ gopOk (.xaddi ⟨2, 1, 8⟩) = true
    ∧ Claims.portExists running (.xaddi ⟨2, 1, 8⟩) = true ∧ Claims.ready running (isd (.xaddi ⟨2, 1, 8⟩)) = true := by decide +kernel

theorem witness_waits_or_stops : Claims.ready on (isd (.xaddi ⟨2, 1, 8⟩)) = false
    ∧ Claims.portExists on (.token ⟨0, 1, true, 29⟩) = false ∧ gopOk (.psetn ⟨1, 65⟩) = false
    ∧ Claims.portExists on (.psetn ⟨1, 65⟩) = true := by decide +kernel

/-- Gallery 4 of hall 3 with one operation in flight. -/
def flying (ws : List RegWrite) : State := running.updGal 52 (fun g => { g with inflight := [⟨1000004, ws⟩] })

theorem witness_results : (flying [.v 5 ⟨7, 0⟩]).gal 52 = { (flying []).gal 52 with inflight := [⟨1000004, [.v 5 ⟨7, 0⟩]⟩] }
    ∧ ((flying [.x 0 ⟨7, false⟩]).gal 52).inflight[0]? = some ⟨1000004, [.x 0 ⟨7, false⟩]⟩
    ∧ ((flying [.p 1 ⟨7, false⟩]).gal 52).inflight[0]? = some ⟨1000004, [.p 1 ⟨7, false⟩]⟩
    ∧ ((flying []).hall 3).reg.asA0 = false
    ∧ (((flying []).updHall 3 (fun h => { h with reg := { h.reg with asA0 := true } })).hall 3).reg.asA0 = true := by decide +kernel

theorem witness_sticky : (Instr.iadd 3 4 vf).issued.isSome = true ∧ ∃ t, exec (.iadd 3 4 vf) on = .next t :=
  ⟨by decide +kernel, _, rfl⟩

theorem witness_lane_operations : gopOk (.vec .iadd vf) = true ∧ Claims.ready running (isd (.vec .iadd vf)) = true
    ∧ ∀ e < 64, Claims.plainVal (Claims.galOf running (isd (.vec .iadd vf))) vf e .iadd = some 0 := by decide +kernel

/-- Lane 0 of V2 holds a signalling NaN. -/
def withNaN : State := running.updGal 52 (fun g => g.setV 2 ⟨0x7F800001, 0⟩)

theorem witness_nan : gopOk (.vec .fadd vf) = true ∧ Claims.ready withNaN (isd (.vec .fadd vf)) = true
    ∧ Claims.isNaN32 (((Claims.galOf withNaN (isd (.vec .fadd vf))).vr 2).lane 0) = true
    ∧ Claims.isSig32 (((Claims.galOf withNaN (isd (.vec .fadd vf))).vr 2).lane 0) = true
    ∧ (enabled (Claims.galOf withNaN (isd (.vec .fadd vf))) 0 false).getLsbD 0 = true
    ∧ gopOk (.vec .fmin vf) = true ∧ Claims.ready withNaN (isd (.vec .fmin vf)) = true
    ∧ Claims.isNaN32 (((Claims.galOf withNaN (isd (.vec .fmin vf))).vr 2).lane 1) = false
    ∧ Claims.isNaN32 (((Claims.galOf withNaN (isd (.vec .fmin vf))).vr 3).lane 1) = false := by decide +kernel

theorem witness_compares : gopOk (.vec .icmplt vf) = true ∧ vopIsCmp .icmplt = true ∧ Claims.intRel 1 2 .icmplt = some true
    ∧ Claims.ready running (isd (.vec .icmplt vf)) = true ∧ gopOk (.vec .sel vf) = true
    ∧ Claims.ready running (isd (.vec .sel vf)) = true ∧ gopOk (.vec .fcmple vf) = true := by decide +kernel

theorem witness_reductions : gopOk (.vec .vredmax { vf with vb := 0 }) = true
    ∧ Claims.ready running (isd (.vec .vredmax { vf with vb := 0 })) = true ∧ gopOk (.cvt .cvtf cf) = true
    ∧ Claims.ready running (isd (.cvt .cvtf cf)) = true
    ∧ (let s := running.updGal 52 (fun g => g.setP 1 ⟨4, false⟩)
      enabled (s.gal 52) 1 false = BitVec.twoPow 64 2) := by decide +kernel

theorem witness_address_arithmetic :
    (Claims.addressVal (Claims.galOf running (isd (.x3 .mul ⟨1, 2, 3⟩))) (.x3 .mul ⟨1, 2, 3⟩)).isSome = true
    ∧ Claims.ready running (isd (.x3 .mul ⟨1, 2, 3⟩)) = true ∧ Claims.ready running (isd (.xset ⟨1, 2, 3, true⟩)) = true
    ∧ gopOk (.psetn ⟨1, 64⟩) = true ∧ Claims.ready running (isd (.psetn ⟨1, 64⟩)) = true
    ∧ Claims.ready running (isd (.pand ⟨1, 2, 3⟩)) = true ∧ Claims.ready running (isd (.por ⟨1, 2, 3⟩)) = true
    ∧ gopOk (.pnot ⟨1, 2, 0⟩) = true ∧ Claims.ready running (isd (.pnot ⟨1, 2, 0⟩)) = true := by decide +kernel

theorem witness_control : Claims.ready running (isd (.loop 3)) = true ∧ gopOk (.token ⟨9, 1, false, 0⟩) = true
    ∧ Claims.ready running (isd (.token ⟨9, 1, false, 0⟩)) = true ∧ gopOk (.bval ⟨1, 1, false, 0⟩) = true
    ∧ Claims.ready running (isd (.bval ⟨1, 1, false, 0⟩)) = true ∧ gopOk (.land ⟨63, 32, true, false, false, false⟩) = true
    ∧ Claims.ready running (isd (.land ⟨63, 32, true, false, false, false⟩)) = true
    ∧ (running.hall 3).mapped = some 5 ∧ (running.sl 5).phase = .running := by decide +kernel

theorem witness_loads_and_stores :
    (Claims.loadForm (Claims.galOf running (isd (.ldh ⟨1, false, 1, true, 2⟩))) (.ldh ⟨1, false, 1, true, 2⟩)).isSome = true
    ∧ Claims.ready running (isd (.ldh ⟨1, false, 1, true, 2⟩)) = true ∧ (Claims.start running (isd (.ldh ⟨1, false, 1, true, 2⟩))).upsets = []
    ∧ (let s := running.updGal 52 (fun g => g.setX 1 ⟨0x140000, false⟩)
      Claims.loadForm (s.gal 52) (.ldx ⟨1, false, 1, false, 0⟩) = some (0x140000, 8, 1, false))
    ∧ Claims.storeForm (running.gal 52) (.stl ⟨2, 1, true, 0, false, 3⟩) = some (⟨2, 1, true, 0, false, 3⟩, 1536, 512)
    ∧ gopOk (.stl ⟨2, 1, true, 0, false, 3⟩) = true ∧ Claims.ready running (isd (.stl ⟨2, 1, true, 0, false, 3⟩)) = true := by
  decide +kernel

theorem witness_fingerprints : Claims.ready running (isd (.fpi 1)) = true ∧ Claims.ready running (isd (.fpa ⟨1, 2, 1, true⟩)) = true
    ∧ storeOff ((running.gal 52).xr 2).bits 512 = 0 ∧ Claims.ready running (isd (.fpout ⟨1, 2, 7, false⟩)) = true := by decide +kernel

/-- Hall 3 running, with a line in the alcove buffer toward it on side 2 and in its stairwell buffer from die 1. -/
def crossing : State := { running with xport := { running.xport with
  alcove := [(28, [⟨7, false, 0⟩])], stair := [(13, [⟨8, true, 0⟩])] } }

theorem witness_transport : gopOk (.awr ⟨2, 1, true⟩) = true ∧ Claims.ready crossing (isd (.awr ⟨2, 1, true⟩)) = true
    ∧ crossing.upsets = [] ∧ storeOff ((running.gal 52).xr 1).bits 512 = 0 ∧ alcoveNbr 3 2 = some 7 ∧ alcoveNbr 3 1 = none
    ∧ crossing.deadHall 7 = false ∧ Claims.ready crossing (isd (.awr ⟨1, 1, true⟩)) = true
    ∧ Claims.ready crossing (isd (.ard ⟨2, 1, true⟩)) = true
    ∧ oldest (crossing.xport.alc (alcoveKey 7 (oppSide 2))) crossing.now = some ⟨7, false, 0⟩
    ∧ Claims.ready crossing (isd (.swr ⟨1, 1, true⟩)) = true ∧ Claims.ready crossing (isd (.swr ⟨0, 1, true⟩)) = true
    ∧ dieOfHall 3 = 0 ∧ crossing.deadHall (mirror 3 1) = false ∧ Claims.ready crossing (isd (.srd ⟨1, 1, true⟩)) = true
    ∧ oldest (crossing.xport.stw (stairKey 3 1)) crossing.now = some ⟨8, true, 0⟩
    ∧ Claims.ready running (isd (.csend ⟨false, 1, 2, false⟩)) = true ∧ gopOk (.hld ⟨1, 2, 0, 0, false⟩) = true
    ∧ Claims.ready running (isd (.hld ⟨1, 2, 0, 0, false⟩)) = true ∧ running.route (running.who 3 4) 1 (hbmOff ((Claims.galOf running (isd (.hld ⟨1, 2, 0, 0, false⟩))).xr 2).bits) = some 0
    ∧ running.route (running.who 3 4) 2 (hbmOff ((Claims.galOf running (isd (.hst ⟨1, 2, 1, 0, true⟩))).xr 2).bits) = some 0
    ∧ Claims.ready running (isd (.bayw ⟨1, 2, true, true⟩)) = true ∧ running.badBay (bayDesc 0) = false
    ∧ gopOk (.hst ⟨1, 2, 1, 0, true⟩) = true ∧ Claims.ready running (isd (.hst ⟨1, 2, 1, 0, true⟩)) = true
    ∧ gopOk (.cfetch ⟨2, 63, true⟩) = true ∧ Claims.ready running (isd (.cfetch ⟨2, 63, true⟩)) = true
    ∧ gopOk (.bayr ⟨1, 2, true, true⟩) = true ∧ Claims.ready running (isd (.bayr ⟨1, 2, true, true⟩)) = true := by decide +kernel

/-- An AWR from a store that holds 5 at offset 3 puts a line with that byte at the end of the buffer of side 2 (05 R216). -/
theorem test_awr : (match exec (.awr 3 4 ⟨2, 1, false⟩ []) (({ running with undef := [] } : State).writeBytes (storeAddr 52 3) [5]) with
    | .next t => (t.xport.alc 14).map (fun e => e.line.extractLsb' 24 8) | _ => []) = [(5 : Byte)] := by decide +kernel

/-- An accumulator bank of gallery 4 of hall 3 that has been cleared, and a loaded tile of format 4. -/
def loaded : State := running.updGal 52 (fun g => { g with active := { g.active with loaded := true, fmt := 4 } })

theorem witness_matrix : Claims.ready running (isd (.mclr ⟨1, false, 0⟩)) = true
    ∧ gopOk (.mma { mm with rv := true, xr := 0 }) = true ∧ Claims.ready loaded (isd (.mma { mm with rv := true, xr := 0 })) = true
    ∧ gopOk (.mrd ⟨0, 1, 0, 0, false, true, false, 0, false, 0⟩) = true
    ∧ Claims.ready running (isd (.mrd ⟨0, 1, 0, 0, false, true, false, 0, false, 0⟩)) = true
    ∧ Claims.ready running (isd (.mspill ⟨0, 1, true⟩)) = true ∧ gopOk (.mldt ⟨4, 1, 2, true, true, true⟩) = true
    ∧ Claims.ready running (isd (.mldt ⟨4, 1, 2, true, true, true⟩)) = true ∧ ((Fmt.ofCode 4).getD .e4m3).width = 8
    ∧ Claims.ready running (isd (.mfill ⟨0, false, 7, 1, true⟩)) = true ∧ (running.hall 3).reg.mode.getLsbD 0 = false
    ∧ (List.range 3).all (fun k => running.storePoison 52 k == false) = true := by decide +kernel

theorem witness_order_free : List.Perm [((FVal.fin false 1 0), FVal.fin false 1 0), (.fin true 1 0, .fin false 3 0)]
    [(.fin true 1 0, .fin false 3 0), (.fin false 1 0, .fin false 1 0)] := List.Perm.swap _ _ _

/-! ### Witnesses: issue groups and stairs -/

/-- Every gallery of hall 3 holds an empty bundle with issue delta 1 at the place of its next bundle. -/
def grouped : State := (List.range 16).foldl (fun s g =>
  s.updGal (galIdx 3 g) (fun x => { x with istore := [(1024, ⟨0, BitVec.twoPow 256 244, true, false, 0⟩)] })) running

/-- The empty bundle of issue delta 1. -/
def emptyBun : Bun := { delta := 1, lend := 0, ops := [] }

theorem witness_issue_group : (grouped.hall 3).st = .running ∧ (grouped.hall 3).iss.stopped = false
    ∧ (grouped.hall 3).iss.noCopy = false ∧ grouped.upsets = []
    ∧ (∀ g < 16, (grouped.gal (galIdx 3 g)).cond ≠ .fenced ∧ (grouped.gal (galIdx 3 g)).hasBundle 0 0 = true
      ∧ (SMap.get {} (grouped.gal (galIdx 3 g)).istore (istorePos 0 0)).bad = false
      ∧ decodeBundle (SMap.get {} (grouped.gal (galIdx 3 g)).istore (istorePos 0 0)).bits = some emptyBun)
    ∧ grouped.clk.running = true
    ∧ (let s2 := grouped.waitUntil (max (grouped.rawOf (grouped.hallSlice 3) 1) 1)
      let gr := (List.range 16).map (fun g => (g, emptyBun))
      s2.groupFits 3 gr = true ∧ s2.ownUnmet 3 gr = false ∧ s2.waitUnmet 3 gr = false ∧ s2.limited 3 gr = false)
    ∧ max (grouped.rawOf (grouped.hallSlice 3) 1) 1 < 2 ^ 64 := by decide +kernel

/-- A token of flight 9 of slice 5 for ordinal `o` on its way. -/
def tok (o : Word) : Token := { branch := false, flight := 9, ord := o, value := 0, slice := 5 }

def withToken (t : Token) (q : List Token) : State := { landing on with stair := ⟨[t], q⟩ }

/-- A statement about every element of an empty list. -/
theorem forall_mem_of_nil {α : Type} {P : α → Prop} {l : List α} (h : l.isEmpty = true) : ∀ b ∈ l, P b := by
  cases l with
  | nil => exact fun b hb => absurd hb List.not_mem_nil
  | cons a l => exact absurd h (by simp)

theorem witness_tokens :
    (let s := withToken (tok 6) []; s.stair.transit[0]? = some (tok 6) ∧ s.ordFinal (s.tokSlice (tok 6)) 6 = true)
    ∧ (let s := withToken (tok 9) (List.replicate 256 (tok 9))
      s.ordFinal (s.tokSlice (tok 9)) 9 = false ∧ 256 ≤ s.stair.queue.length)
    ∧ (let s := withToken (tok 9) (List.replicate 255 (tok 9))
      s.ordFinal (s.tokSlice (tok 9)) 9 = false ∧ s.stair.queue.length < 256)
    ∧ (let t : Token := { branch := true, flight := 0, ord := 9, value := 3, slice := 5 }
      let s := withToken t []
      s.ordFinal (s.tokSlice t) 9 = false ∧ ∀ b ∈ (s.sl (s.tokSlice t)).bvals, b.1 ≠ 9) :=
  ⟨by decide +kernel, by decide +kernel, by decide +kernel, by decide +kernel, forall_mem_of_nil (by decide +kernel)⟩

/-- A resident flight of slice 5 with one share, on virtual hall 2; a launch candidate. -/
def flightX : Flight :=
  { slice := 5, pid := 0xB001, grid := 0, flags := 0, lands := []
    shares := [{ vh := 2, streams := [[0]], code := [0x10000], windows := [], sides := [], dies := [] }]
    slotTabs := [], tts := [], cregs := [], need := 1, succs := [], start := 0xFFFFFFFF, cand := true, received := 1, run := none
    segsIn := [], ttsIn := [], offHalls := [] }

/-- It is resident as flight 9 on a part whose slice `f` gives. -/
def holding (s : State) : State := s.setFlight 9 (some flightX)

def withHead (s : State) : State := s.updHall 3 (fun h => { h with heads := [⟨some 9, false, false⟩, {}, {}, {}] })

theorem witness_heads : ((holding running).hall 3).st = .running ∧ ((holding running).hall 3).heads = []
    ∧ ((holding running).candidatesOn 3).head? = some 9
    ∧ (let s := withHead (holding running)
      ((s.hall 3).heads.getD 0 {}).flight = some 9 ∧ ((s.hall 3).heads.getD 0 {}).present = false
      ∧ s.flight 9 = some flightX ∧ (s.shareOn 3 flightX).any (fun sh => (s.unschedRead (headEnd sh ((List.range 16).filter (fun g =>
          (s.gal (galIdx 3 g)).cond != .fenced))) (dieOfHall 3)).isSome) = true)
    ∧ (let s := (holding running).updHall 3 (fun h => { h with heads := [⟨some 8, true, false⟩, ⟨some 10, false, false⟩, {}, {}] })
      (s.candidatesOn 3).find? (fun f => ((s.hall 3).slotOf f).isNone) = some 9 ∧ (s.hall 3).pickSlot 9 = some 2) := by
  decide +kernel

/-- A line from compute die 0 to compute die 1, on its way to hall 20. -/
def lineTo (fails : Nat) : StwLine :=
  { src := 0, dst := 1, sched := true, fails, due := 1000002, line := 7, poison := false, dest := .hall 20 0 }

/-- A part whose stairwell lines wait, fly, and go on stairwells that have failed as given. -/
def lines (waiting flying : List StwLine) (failed : List Nat) : State :=
  { on with xport := { on.xport with waiting, flying, failed } }

theorem witness_stairwell_frame :
    (let s := lines [lineTo 0] [] []
      let s0 := s.waitUntil s.xport.next
      let s1 := s0.passTreads (if s0.clk.running then (s0.now + s0.evenTread) % 2 else 0)
      let r := stwPlace (s1.xport.usedIn s1.now)
        (s.xport.waiting.filter (fun l => l.sched) ++ s.xport.waiting.filter (fun l => !l.sched))
      Claims.comes s s.xport.next ∧ s.xport.waiting = [lineTo 0] ∧ (lineTo 0).relay = none ∧ s.xport.usedAt ≠ s1.now
        ∧ r.1 = [lineTo 0]) := by
  unfold Claims.comes; decide +kernel

theorem witness_stairwell_arrival : (let s := lines [] [lineTo 2, lineTo 3] []
      s.xport.flying[0]? = some (lineTo 2) ∧ s.xport.failed.contains (stwKey 0 1) = false ∧ (lineTo 2).dest = .hall 20 0
      ∧ s.deadHall 20 = false ∧ (lineTo 2).fails < 3 ∧ s.xport.flying[1]? = some (lineTo 3) ∧ 3 ≤ (lineTo 3).fails)
    ∧ (let s := lines [] [lineTo 2] [stwKey 0 1]
      s.xport.flying[0]? = some (lineTo 2) ∧ s.xport.failed.contains (stwKey 0 1) = true) := by decide +kernel

theorem witness_scrub_and_storm : (let s := hallIn .running on
      (s.hall 3).reg.scrubEn = true ∧ (s.hall 3).st = .running ∧ s.upsets = [] ∧ Claims.comes s (s.scrubTime 3)
      ∧ (s.gal 52).cond ≠ .fenced)
    ∧ (let s := (on.updHall 3 (fun h => { h with st := .running })).updGal 52 (fun g => { g with stormWin := 0, stormCe := [(0, 65)] })
      (s.gal 52).stormWin = s.now / 2 ^ 20 ∧ (s.gal 52).stormDone = false
      ∧ SMap.get 0 (s.gal 52).stormCe 0 = 65 ∧ SMap.get 0 (s.gal 52).stormCe 1 = 0 ∧ SMap.get 0 (s.gal 52).stormCe 2 = 0
      ∧ s.flt.storm.toNat < 65 ∧ (s.gal 52).cond = .healthy ∧ (s.hall 3).st = .running ∧ (s.hall 3).mapped = none) := by
  unfold Claims.comes; decide +kernel

/-! ### Witnesses: landings -/

theorem witness_idle_landing : (let s := sliceIn .idle on
    (s.sl 5).admitted = true ∧ (s.sl 5).epochSet = true ∧ (s.sl 5).phase = .idle ∧ (s.sl 5).started = false
    ∧ Claims.comes s (s.rawOf 5 0))
    ∧ (let s := (sliceIn .idle on).updSl 5 (fun x => { x with started := true, nextA := 600000 })
      (s.sl 5).phase = .idle ∧ Claims.comes s (s.rawOf 5 (600000 + 0x4000))) := by
  unfold Claims.comes; decide +kernel

theorem witness_report : (let s := landing on
    (s.sl 5).phase = .landing ∧ (s.sl 5).land.reported = false ∧ Claims.comes s (Claims.reportTread s 5)) := by
  unfold Claims.comes Claims.reportTread; decide +kernel

/-- The landing of slice 5 has been reported; the part is ready as `r` says. -/
def reported (r : Bool) (s : State) : State := (landing s).updSl 5 (fun x => { x with land := { x.land with reported := true, ready := r } })

theorem witness_ready : (let s := reported false on
    (s.sl 5).phase = .landing ∧ (s.sl 5).land.reported = true ∧ (s.sl 5).land.ready = false
    ∧ ((s.countTokens 5).judge 5 (s.sl 5).land.d).block = none
    ∧ Claims.comes s (s.rawOf 5 ((s.sl 5).land.a
        + BitVec.ofNat 64 ((s.countTokens 5).judge 5 (s.sl 5).land.d).need))) := by
  unfold Claims.comes; decide +kernel

theorem witness_hold_length : 0 ≤ (100 : Int) - 0 + (7 : Nat) + 256 := by decide

/-- Slice 5 has two parts, 1, the master, and 2; this part is part `c`. -/
def paired (c : BitVec 16) (s : State) : State :=
  { (s.updSl 5 (fun x => { x with id := { x.id with k := 1, master := 0xFFFF, base := 1, pos := c.toNat - 1 } })) with
    cfg := { s.cfg with chip := c } }

theorem witness_landing_end : (let s := reported true on
    (s.sl 5).phase = .landing ∧ (s.sl 5).land.reported = true ∧ (s.sl 5).land.commit = false ∧ (s.sl 5).land.quiesce = false
    ∧ (s.sl 5).err.outcome = none ∧ Claims.comes s (Claims.endTread s 5) ∧ (s.sl 5).land.holdPend = false
    ∧ (s.sl 5).land.ready = true)
    ∧ (let s := (reported false on).updSl 5 (fun x => { x with land := { x.land with holdPend := true } })
      Claims.comes s (Claims.endTread s 5) ∧ (s.sl 5).land.holdPend = true ∧ (s.sl 5).land.released = false
      ∧ (s.sl 5).land.ready = false)
    ∧ (let s := paired 2 ((reported true on).updSl 5 (fun x => { x with land := { x.land with holdPend := true } }))
      Claims.comes s (Claims.endTread s 5) ∧ (s.sl 5).land.holdPend = true ∧ (s.sl 5).land.released = false
      ∧ (s.sl 5).land.ready = true ∧ (s.sl 5).land.sent = false ∧ s.isMaster 5 = false) := by
  unfold Claims.comes Claims.endTread; decide +kernel

def rep : HoldReport := ⟨2, 1, 7, 500000, 600000⟩

theorem witness_hold_reports : (let s := paired 2 (sliceIn .running on)
    (s.sl 5).admitted = true ∧ s.isMaster 5 = false)
    ∧ (let s := paired 1 (sliceIn .running on)
      (s.sl 5).admitted = true ∧ s.isMaster 5 = true ∧ (s.sl 5).reports.length + 1 < 2 ^ (s.sl 5).id.k
      ∧ ∀ y ∈ (s.sl 5).reports, y.chip ≠ rep.chip) := by decide +kernel

/-- Slice 5 is held, its next release at ordinal 7. -/
def held (s : State) : State := (reported false s).updSl 5 (fun x => { x with
  phase := .held, land := { x.land with holdPend := true, holdOrd := 7 } })

theorem witness_release : (let s := held on
    (s.sl 5).admitted = true ∧ (s.sl 5).phase = .held ∧ (s.sl 5).land.holdPend = true ∧ (s.sl 5).land.released = false
    ∧ (s.sl 5).land.holdOrd = 7
    ∧ s.now ≤ ((((s.sl 5).epoch + ((s.sl 5).offset + (200192#32).zeroExtend 64)
        + ((s.sl 5).land.a + BitVec.ofNat 64 (s.sl 5).land.w)).toNat : Int) + (s.sl 5).land.err).toNat) := by
  decide +kernel

/-- An outcome of ordinal 7, of part 1. -/
def out (abort : Bool) : CommitOutcome := { ordinal := 7, abort, save := false, chip := 1, cause := 0 }

def crep : CommitReport := ⟨2, 0, 0, 7, 0, 0xFF, 0xFF, 0⟩

theorem witness_commit_reports : (let s := paired 2 (sliceIn .running on)
    s.isMaster 5 = false)
    ∧ (let s := paired 1 (sliceIn .running on)
      s.isMaster 5 = true ∧ (s.sl 5).err.reports.length + 1 < 2 ^ (s.sl 5).id.k
      ∧ ∀ y ∈ (s.sl 5).err.reports, y.chip ≠ crep.chip) := by decide +kernel

/-- Slice 5 is at a commit landing whose end lies ahead. -/
def committing (s : State) : State := (reported true s).updSl 5 (fun x => { x with
  land := { x.land with commit := true, a := 499500 } })

theorem witness_commit_outcome : (let s := committing on
    (s.sl 5).admitted = true ∧ (s.sl 5).phase = .landing ∧ (s.sl 5).land.commit = true ∧ (s.sl 5).land.ord = 7
    ∧ (s.sl 5).err.outcome = none ∧ s.now ≤ Claims.endTread s 5) := by
  unfold Claims.endTread; decide +kernel

theorem witness_timeouts : (let s := held on
    Claims.comes s ((s.sl 5).land.since + 16777216) ∧ (s.sl 5).phase = .held ∧ (s.sl 5).land.released = false)
    ∧ (let s := committing on
      Claims.comes s (Claims.endTread s 5 + 16777216) ∧ (s.sl 5).phase = .landing ∧ (s.sl 5).land.reported = true
      ∧ (s.sl 5).land.commit = true ∧ (s.sl 5).err.outcome = none) := by
  unfold Claims.comes Claims.endTread; decide +kernel

/-! ### Witnesses: recovery -/

theorem witness_test_walk : (let s := on.updGal 52 (fun g => { g with walk := some 999000, passes := [5, 6] })
    let recent := (s.gal 52).passes.filter (fun t => s.now < t + 2 ^ 34)
    (s.gal 52).walk = some 999000 ∧ (⟨0, 4⟩ : WalkResult).phase = 0 ∧ (⟨0, 4⟩ : WalkResult).corrected ≤ s.flt.walkCe.toNat
    ∧ recent.length < s.flt.repLim.toNat ∧ (⟨2, 0⟩ : WalkResult).phase ≠ 0) := by decide +kernel

theorem witness_rejoin : (let s := on.updGal 52 (fun g => { g with scrubbing := true, scrubEnd := 1002000 })
    (s.gal 52).scrubbing = true ∧ Claims.comes s (s.gal 52).scrubEnd)
    ∧ (let s := (hallIn .running (landing on)).updGal 52 (fun g => { g with cond := .rejoining, stamp := some 0 })
      (s.hall 3).mapped = some 5 ∧ (s.sl 5).phase = .landing ∧ (s.sl 5).land.reported = false ∧ (s.gal 52).cond = .rejoining
      ∧ (s.gal 52).scrubbing = false ∧ (s.gal 52).stamp = some 0 ∧ 0 = (s.sl 5).err.epoch
      ∧ (s.landingUnits 5).head? = some (.gallery 3 4) ∧ s.rejoinFits 5 (.gallery 3 4) = true
      ∧ (let t := s.updSl 5 (fun x => { x with land := { x.land with d := 127 } })
        (t.landingUnits 5).head? = some (.gallery 3 4) ∧ t.rejoinFits 5 (.gallery 3 4) = false))
    ∧ (let s := (hallIn .running (landing on)).updGal 52 (fun g => { g with cond := .rejoining, stamp := some 1 })
      (s.gal 52).stamp = some 1 ∧ 1 ≠ (s.sl 5).err.epoch)
    ∧ (let s := on.updHall 3 (fun h => { h with st := .waking, pwr := { h.pwr with stamp := some 0 } })
      s.admitted = [] ∧ Claims.comes s ((s.now + 16383) / 16384 * 16384) ∧ s.idleUnits = [.hall 3]) := by
  unfold Claims.comes; decide +kernel

theorem witness_fence : (let s := (hallIn .running (landing on)).updGal 52 (fun g => { g with walkFailed := true })
    (s.gal 52).walkFailed = true ∧ s.landsNow 3 = true) := by decide +kernel

/-- Queue 0 enabled, with rings in host memory. -/
def queued (s : State) : State := s.updQueue 0 (fun q => { q with
  en := true, idle := false, sqLog := 4, cqLog := 4, sqb := 0x100000, cqb := 0x200000, cqHead := 0xFFFF })

theorem witness_notices : (let s := (sliceIn .running on).updSl 5 (fun x => { x with err := { x.err with noticeDue := true } })
    (s.sl 5).err.noticeDue = true ∧ ∀ ph ∈ s.hallsOf 5, (s.hall ph).st ≠ .testing)
    ∧ (let s := (queued on).updQueue 0 (fun q => { q with notices := [⟨4, 5, 5, none⟩] })
      (s.queue 0).notices = [⟨4, 5, 5, none⟩] ∧ (s.queue 0).free ≠ 0 ∧ (s.queue 0).err = false ∧ (s.queue 0).idle = false) := by
  decide +kernel

/-! ### Witnesses: memory controllers -/

/-- A write of one line at offset 0 of HBM. -/
def hstReq : MemReq := { id := 4, kind := .hst, gi := 52, vh := 2, flight := 9, baddr := 0, off := 0, store := 0, n := 1, win := 0, at_ := 0,
                         poison := false, missing := 0, lines := [(7, false)] }

theorem witness_serve : hstReq.kind = .hst ∧ hstReq.n = 1 ∧ hstReq.lines = [(7, false)] ∧ hstReq.win = 0 ∧ hstReq.off % 512 = 0
    ∧ (BitVec.allOnes 64).getLsbD (pcOf (hstReq.off / 512)) = true ∧ (on.mc (stackOfLine (hstReq.off / 512))).cregs = [] := by decide +kernel

theorem witness_memory_frame : on.hasStack 2 = true ∧ (on.mc 2).selfref = false ∧ on.mainOn = true ∧ (on.mc 2).flights = []
    ∧ Claims.comes on ((max on.now (on.mc 2).next + 15) / 16 * 16)
    ∧ Claims.comes on (ceilTo (bandTI (on.mc 2).band) (match (on.mc 2).tickAt with | some x => max on.now (x + 1) | none => on.now))
    ∧ SMap.get 0 ((on.updMc 2 (fun m => { m with debt := [(5, 32)] })).mc 2).debt 5 = 32 := by
  unfold Claims.comes; decide +kernel

/-- An entry of a slot table: a write of virtual hall 2, gallery 4, once in frame 0, on every pseudo-channel. -/
def slotEnt : BitVec 128 := BitVec.ofNat 128 ((2 ^ 64 - 1) * 2 ^ 16 + 2 * 2 ^ 13 + 2 * 2 ^ 6 + 4 * 2 ^ 2)

/-- Controller 2 has that entry due at the present tread, and the request that it serves. -/
def slotted : State := running.updMc 2 (fun m => { m with
  flights := [{ flight := 9, slice := 5, e0 := 500000, segs := [⟨0, [slotEnt], [0]⟩] }], reqs := [hstReq] })

theorem witness_memory_action : Claims.comes slotted (slotted.nextFrame 2)
    ∧ (Claims.frameState slotted 2).dueAt 2 = [⟨1000000, 9, 0, 0, slotEnt⟩] ∧ slotKind slotEnt = 2
    ∧ ((Claims.frameState slotted 2).mc 2).matching ⟨1000000, 9, 0, 0, slotEnt⟩ [] = some hstReq
    ∧ (Claims.frameState slotted 2).reqReady hstReq = true ∧ ((Claims.frameState slotted 2).mc 2).busy = [] := by
  unfold Claims.comes; decide +kernel

/-- A slot table of controller 2 that has asked for its next segment at offset 0. -/
def asking : McFlight := { flight := 9, slice := 5, e0 := 500000, fetch := some (0, 64) }

theorem witness_segments : (let s := (on.setFlight 9 (some { flightX with slotTabs := [(2, [0])] }))
    s.flight 9 = some { flightX with slotTabs := [(2, [0])] }
    ∧ (s.mc 2).flights.find? (fun y => y.flight = 9 && y.fetch.isSome) = none)
    ∧ (let s := (on.updMc 2 (fun m => { m with flights := [asking] })).writeBytes 0 (leBytes 32 slotEnt.toNat)
      (s.mc 2).flights.find? (fun y => y.flight = 9 && y.fetch.isSome) = some asking
      ∧ (s.mc 2).entries + (s.readSlots 0).length ≤ 16384
      ∧ (s.unschedRead (0 + 16 * (s.readSlots 0).length) (dieOfStack 2)).isSome = true)
    ∧ (on.mc 2).scrubEn = true ∧ (on.mc 2).selfref = false ∧ Claims.comes on (on.patrolTime 2) ∧ on.upsets = []
    ∧ 7 ∈ (on.waitUntil (on.patrolTime 2)).scrubPcs 2 ∧ SMap.get 0 (on.mc 2).scrubPtr 7 < 2621440
    ∧ on.mcUsed 2 = false
    ∧ (let s := on.updMc 2 (fun m => { m with selfref := true })
      s.hasStack 2 = true ∧ (s.mc 2).selfref = true) ∧ on.hasStack 13 = false := by
  unfold Claims.comes; decide +kernel

/-! ### Witnesses: timetables -/

/-- An entry of operation `op` for bay 3 of port 0, of one frame. -/
def ent (op : Nat) : TtEnt :=
  { t := 0, period := 64, count1 := 0, slice := 5, op, red := 0, rel := true, bayA := 3, portA := 0, bayB := 4, portB := 1, arcB := 1
    relay := 6, mask := 1, pid := 0x00900007, size := 1, vh := 0, en := false, off := 0x8000 }

def act (op : Nat) : TtAct := { t := 500100, flight := 9, seg := 0, ent := 0, r := 0, e := ent op }

/-- Context 0 of port 0, of slice 5, has the action next. -/
def ready (op : Nat) (s : State) : State := (sliceIn .running s).updCtx 0 (fun x => { x with
  en := true, slice := 5, wheel := 0xFFFF, streams := [⟨9, [⟨500100, [ent op], [0]⟩], none⟩] })

/-- Bay 3 of port 0 holds a parcel with that identifier and no payload, written here. -/
def filled (pid : Word) (s : State) : State := s.updBay 3 (fun b => { b with hdr := mkHdr 5 0 0 0 0 0 pid 0, present := BitVec.allOnes 17 })

theorem witness_send : Claims.fires (filled 0x00900007 (ready 1 on)) 0 1 (act 1) ∧ Claims.fires (filled 0x00900008 (ready 1 on)) 0 1 (act 1)
    ∧ Claims.fires (ready 1 on) 0 1 (act 1) ∧ Claims.fires (filled 0x00900007 (ready 2 on)) 0 2 (act 2) := by
  unfold Claims.fires Claims.comes; decide +kernel

theorem witness_send_bays : (let s := filled 0x00900007 (ready 1 on)
    s.hasPort 0 = true ∧ (s.ctx 0).dead = false ∧ (s.bay (bayKey ((act 1).bayA 0))).frameReady 0 = true
    ∧ (s.bay (bayKey ((act 1).bayA 0))).sendFault (act 1) = none)
    ∧ (let s := filled 0x00900008 (ready 1 on)
      (s.bay (bayKey ((act 1).bayA 0))).frameReady 0 = true ∧ (s.bay (bayKey ((act 1).bayA 0))).sendFault (act 1) = some 0x0113)
    ∧ (let s := ready 1 on
      (s.bay (bayKey ((act 1).bayA 0))).frameReady 0 = false)
    ∧ (let s := filled 0x00900007 (ready 2 on)
      s.maskCtxs 0 1 ≠ [] ∧ (∀ d ∈ s.maskCtxs 0 1, (s.ctx d).dead = false)
      ∧ (s.bay (bayKey ((act 2).bayA 0))).frameReady 0 = true ∧ (s.bay (bayKey ((act 2).bayA 0))).sendFault (act 2) = none) := by
  decide +kernel

/-- A parcel that is due and has not come. -/
def due : Await := { pid := 0x00900007, bayP := 0, bay := 3, frames := 1, fired := true, matched := false, missAt := 1000100, openAt := 997540
                     reduce := false, red := 0, bPort := 0, bBay := 0, vh := 0, en := false }

theorem witness_recv : Claims.fires (ready 3 on) 0 3 (act 3) ∧ Claims.fires (ready 4 on) 0 4 (act 4)
    ∧ ((ready 3 on).ctx 0).early ((act 3).bayA 0) (act 3).pid = none ∧ ((ready 4 on).ctx 0).early ((act 4).bayA 0) (act 4).pid = none
    ∧ (∀ d : Bool, let s := (ready 3 on).updCtx 0 (fun x => { x with awaits := [{ due with fired := false, matched := true, done := d }] })
      Claims.fires s 0 3 (act 3) ∧ (s.ctx 0).early ((act 3).bayA 0) (act 3).pid =
        some { due with fired := false, matched := true, done := d }) := by
  unfold Claims.fires Claims.comes; decide +kernel

theorem witness_copy_and_free : Claims.fires (filled 0x00900007 (ready 5 on)) 0 5 (act 5) ∧ Claims.fires (ready 6 on) 0 6 (act 6)
    ∧ Claims.fires (ready 8 on) 0 8 (act 8)
    ∧ (let s := filled 0x00900007 (ready 5 on)
      (s.bay 3).owner = none ∧ (ent 5).size < 17 ∧ (∀ l < min 16 (ent 5).size, (s.bay 3).present.getLsbD l = true)
      ∧ s.bay (((ent 5).arcB * 6 + (ent 5).portB) * 128 + (ent 5).bayB) = {}
      ∧ ((ent 5).arcB * 6 + (ent 5).portB) * 128 + (ent 5).bayB ≠ bayKey ((act 5).bayA 0))
    ∧ (let s := (filled 0x00900007 (ready 5 on)).updBay (7 * 128 + 4) (fun b => { b with users := 1 })
      Claims.fires s 0 5 (act 5) ∧ s.bay (((ent 5).arcB * 6 + (ent 5).portB) * 128 + (ent 5).bayB) ≠ {})
    ∧ ((ready 6 on).bay 3).users = 0
    ∧ (let s := (ready 6 on).updBay 3 (fun b => { b with users := 1 })
      Claims.fires s 0 6 (act 6) ∧ (s.bay 3).users ≠ 0) := by
  unfold Claims.fires Claims.comes; decide +kernel

theorem witness_tsend : (let s := (ready 7 on).updPort 0 (fun p => { p with outbox := [1, 2] })
    Claims.fires s 0 7 (act 7) ∧ (s.ctx 0).dead = false ∧ (ent 7).size ≤ (s.port 0).outbox.length ∧ s.bay 3 = {}) := by
  unfold Claims.fires Claims.comes; decide +kernel

theorem witness_segment : (let st : Stream := ⟨9, [⟨500100, [ent 1], [0]⟩], some (0x8000, 600000)⟩
    let s := on.updCtx 0 (fun x => { x with streams := [st] })
    (s.ctx 0).streams.find? (fun y => y.flight = 9 && y.fetch.isSome) = some st ∧ (s.unschedRead (0x8000 + 2047) 4).isSome = true)
    ∧ (let s := on.setFlight 9 (some flightX)
      (s.ctx 0).streams.find? (fun y => y.flight = 9 && y.fetch.isSome) = none ∧ s.flight 9 = some flightX) := by decide +kernel

theorem witness_missing : (let s := (ready 1 on).updCtx 0 (fun x => { x with awaits := [due] })
    (s.ctx 0).awaits.find? (fun y => y.fired) = some due
    ∧ (s.waitUntil (s.missTread 0 due)).missTread 0 due ≤ (s.waitUntil (s.missTread 0 due)).now) := by decide +kernel

/-- A combine of bay 3 of port 0 into bay 4 of port 1, and the bays with headers for it, bay 3 with flags `f`. -/
def comb : Comb := ⟨1000000, 0, 3, 1, 4, 0, 0, 0, 0x00900007⟩
def combining (f : Byte) (s : State) : State :=
  (((ready 4 s).updArc 0 (fun y => { y with combs := [comb] })).updBay 3 (fun b => { b with
    hdr := mkHdr 5 0 1 4 0 0 0x00900007 0, frames := 1, flags := f, owner := some 0, present := BitVec.allOnes 17 })).updBay 132 (fun b =>
      { b with hdr := mkHdr 5 0 1 4 0 0 0x00900008 0, present := BitVec.allOnes 17 })

theorem witness_combine : (let s := combining 1 on
    0 < arcadesOf s.cfg.grade ∧ (s.arc 0).combs[0]? = some comb ∧ s.combReady 0 0 comb = true
    ∧ (comb.aPort, comb.aBay) ≠ (comb.bPort, comb.bBay) ∧ comb.aPort * 128 + comb.aBay ≠ comb.bPort * 128 + comb.bBay
    ∧ (s.bay 3).flags.getLsbD 0 = true)
    ∧ (let s := combining 0 on
      s.combReady 0 0 comb = true ∧ (s.bay 3).flags.getLsbD 0 = false ∧ reduceBad (s.bay 3) (s.bay 132) comb.red = false) := by decide +kernel

/-- Bay 96 of port 0 holds a complete parcel of one token record. -/
def recorded (s : State) : State := (ready 3 s).updBay 96 (fun b => { b with
  hdr := mkHdr 5 1 0 8 0 0 0x00900007 1, frames := 1, owner := some 0, present := BitVec.allOnes 17 })

theorem witness_token_record : (let s := recorded on
    let b := s.bay 96
    s.hasPort 0 = true ∧ b.owner = some 0 ∧ b.whole = true ∧ b.expect = false ∧ hdrClass b.hdr = 1 ∧ hdrKind b.hdr = 0
    ∧ hdrCount b.hdr = 1 ∧ s.forwards 0 96 (hdrPid b.hdr) = false
    ∧ (List.range (min (hdrCount b.hdr) 16)).map (fun i =>
        recordToken (s.ctx 0).slice (BitVec.ofNat 64 (b.payload (hdrLen b.hdr) / 2 ^ (64 * i)))) =
          [({ branch := false, flight := 0, ord := 0, value := 0, slice := 5 } : Token)].map some) := by decide +kernel

/-! ### Witnesses: fabric and storage -/

theorem witness_relays : (let s : State := { on with relays := [.hold 5 rep, .release 5 ⟨7, 256, false⟩, .report 5 crep,
      .outcome 5 (out false), .epoch 5 2000000 0] }
    s.relays[0]? = some (.hold 5 rep) ∧ s.relays[1]? = some (.release 5 ⟨7, 256, false⟩) ∧ s.relays[2]? = some (.report 5 crep)
    ∧ s.relays[3]? = some (.outcome 5 (out false)) ∧ s.relays[4]? = some (.epoch 5 2000000 0)) := by decide +kernel

theorem witness_epoch_parcels : (let s := (paired 2 on).updSl 5 (fun x => { x with admitted := true })
    let s1 := s.takeIn (isCtl 5 1 (epochBytes 2000000 999900))
    let diff := s.clk.tread - 999900 - BitVec.ofNat 64 (s1.link 0).delay
    s.hasLink 0 0 = true ∧ (s.sl 5).admitted = true ∧ (s.sl 5).epochSet = false ∧ s1.parentLink (s.sl 5).id = some (0, 0)
    ∧ (s.clk.tread - (2000000 + diff)).toInt ≤ 0
    ∧ (let diff := s.clk.tread - 999900 - BitVec.ofNat 64 ((s.takeIn (isCtl 5 1 (epochBytes 900000 999900))).link 0).delay
      0 < (s.clk.tread - (900000 + diff)).toInt))
    ∧ (on.sl 5).admitted = false ∧ (on.sl 5).refused = false
    ∧ (let s := sliceIn .running on
      (s.sl 5).admitted = true ∧ (s.sl 5).epochSet = true) := by decide +kernel

/-- The link of port 10, a whole port, in phase `x`. -/
def linkIn (x : LinkPhase) (s : State) : State := s.updLink 20 (fun l => { l with phase := x, width := 8, slotAt := 1000010 })

/-- A beacon of part 7 on its port 10, which serves storage. -/
def bcn : Beacon := { chip := 7, install := 0, arcade := 1, index := 4, half := 0, version := 2, role := 0x20, grade := 1, linkmap := 0, seq := 3, res := 0 }

theorem witness_beacons : on.hasLink 10 0 = true ∧ on.lowPort 10 = 10
    ∧ (let s := linkIn .up on
      (s.link 20).phase = .up ∧ (s.link 20).bcnWaits = false ∧ (s.link 20).bcnSent = false ∧ beaconReserved bcn = false
      ∧ s.compatible 20 bcn = true ∧ (s.link 20).nbr.state ≠ 3)
    ∧ (let s := (linkIn .up on).updLink 20 (fun l => { l with bcnSent := true })
      (s.link 20).phase = .up ∧ (s.link 20).bcnWaits = false ∧ Claims.comes s ((s.link 20).bcnAt + s.bcnTreads))
    ∧ (let s := (linkIn .up on).updLink 20 (fun l => { l with nbr := { l.nbr with state := 3 } })
      (s.link 20).phase = .up ∧ (s.link 20).nbr.state = 3 ∧ Claims.comes s ((s.link 20).bcnHeard + 4 * s.bcnTreads))
    ∧ (let s := (ready 1 on)
      s.sliceCtx 5 0 = some 0 ∧ s.ctxLink 0 = 0 ∧ (s.ctx 0).slice = 5) := by
  unfold Claims.comes; decide +kernel

/-- A storage parcel of 64 bytes at offset `a` of this part. -/
def sp (a : BitVec 48) : StorageParcel := { addr := 0xFFFF#16 ++ a, tag := 9, len := 64, status := 0, data := List.replicate 64 7 }

theorem witness_storage_parcels : on.hasPort 10 = true
    ∧ (let s1 := on.takeIn (isStorage 10 0 (sp 0x1000))
      s1.mine 10 (sp 0x1000) = true ∧ s1.rangeBad (localOff (sp 0x1000).addr) 64 true = none
      ∧ (s1.unschedXfer (localOff (sp 0x1000).addr) 64 true).isSome = true
      ∧ (s1.rangeBad (localOff (sp 0xFFFFFFFFFFC0).addr) 64 true).isSome = true ∧ s1.mine 10 { sp 0 with addr := 0 } = false)
    ∧ (let s1 := on.takeIn (isStorage 10 1 (sp 0x1000))
      s1.mine 10 (sp 0x1000) = true ∧ s1.rangeBad (localOff (sp 0x1000).addr) (min (sp 0x1000).len.toNat 8176) false = none
      ∧ (s1.unschedXfer (localOff (sp 0x1000).addr) (min (sp 0x1000).len.toNat 8176) false).isSome = true
      ∧ s1.mine 10 (sp 0xFFFFFFFFFFC0) = true
      ∧ (s1.rangeBad (localOff (sp 0xFFFFFFFFFFC0).addr) (min (sp 0).len.toNat 8176) false).isSome = true) := by decide +kernel

/-! ### Witnesses: links -/

theorem witness_frame_slot : (let s := (linkIn .up on).updLink 20 (fun l => { l with bcnSent := true })
    let x := s.link 20
    s.hasLink 10 0 = true ∧ 2 * s.lowPort 10 = 20 ∧ Claims.slotComes s x ∧ x.sq.ctlq = [] ∧ x.sq.dq = [] ∧ x.sq.mq = []
    ∧ s.wheelCtx 20 (x.slot % 16) = none ∧ x.side.markOut = none ∧ Claims.comes s (x.side.lastMark + 256))
    ∧ (let x := ((linkIn .up on).updLink 20 (fun l => { l with side := { l.side with markOut := some 7 } })).link 20
      x.side.markDue = false ∧ x.side.markOut ≠ none ∧ Claims.comes on (x.side.lastMark + 8192)) := by
  unfold Claims.slotComes Claims.comes; decide +kernel

/-- Context 0 sends bay 3 on the link of port 0, which is up. -/
def sending : State := ((filled 0x00900007 (ready 1 on)).updCtx 0 (fun x => { x with sCred := 1, jobs := [Claims.job on 0 (act 1) true] })).updLink 0
  (fun l => { l with phase := .up, width := 8, slotAt := 1000010, bcnSent := true })

theorem witness_scheduled_frame : sending.hasLink 0 0 = true ∧ 2 * sending.lowPort 0 = 0 ∧ Claims.slotComes sending (sending.link 0)
    ∧ sending.wheelCtx 0 ((sending.link 0).slot % 16) = some 0 ∧ (sending.ctx 0).jobs = [Claims.job on 0 (act 1) true]
    ∧ (sending.bay 3).frameReady 0 = true ∧ sending.room 0 false = true ∧ 0 < (sending.ctx 0).credit (Claims.job on 0 (act 1) true) := by
  unfold Claims.slotComes Claims.comes; decide +kernel

def frameOf (n : BitVec 12) : TxFrame := { seq := n, kind := 1, chan := 65, data := 0, unsch := true, sentAt := 999000 }

theorem witness_retry : (let s := (linkIn .up on).updLink 20 (fun l => { l with sq := { l.sq with
      rbuf := [frameOf 5], reqs := [⟨true, 8, some 999500⟩, ⟨true, 9, some 999000⟩] } })
    let x := s.link 20
    x.phase = .up ∧ x.sq.rbuf = [frameOf 5] ∧ (frameOf 5).seq ∉ x.sq.replayQ ∧ Claims.comes s ((frameOf 5).sentAt + x.retry)
    ∧ x.reg.mode = false ∧ (⟨true, 9, some 999000⟩ : Req) ∈ x.sq.reqs
    ∧ (x.sq.reqs.filter (fun y => y ≠ ⟨true, 9, some 999000⟩)).map (fun y => y.sentAt) = [some 999500]
    ∧ Claims.comes s (999000 + x.retry)) := by
  unfold Claims.comes; decide +kernel

theorem witness_retry_all : (let s := (linkIn .up on).updLink 20 (fun l => { l with
      sq := { l.sq with rbuf := [frameOf 5, frameOf 6] }, reg := { l.reg with mode := true } })
    (s.link 20).sq.rbuf = [frameOf 5, frameOf 6] ∧ (frameOf 5).seq ∉ (s.link 20).sq.replayQ
    ∧ Claims.comes s ((frameOf 5).sentAt + (s.link 20).retry) ∧ (s.link 20).reg.mode = true) := by
  unfold Claims.comes; decide +kernel

/-- A frame whose only bytes that are not 0 are the last two, so chosen that its check is 0. -/
def lastBytes : FrameMsg := BitVec.ofNat 2560 (37686 * 2 ^ 2544)

def zs : List Byte := List.replicate 53 0
def zeros318 : List Byte := zs ++ (zs ++ (zs ++ (zs ++ (zs ++ zs))))

theorem crc_of_zeros : zeros318.foldl crc16Byte 0xFFFF = 13971 := by
  have h1 : zs.foldl crc16Byte 0xFFFF = 44290 := by decide +kernel
  have h2 : zs.foldl crc16Byte 44290 = 25113 := by decide +kernel
  have h3 : zs.foldl crc16Byte 25113 = 19596 := by decide +kernel
  have h4 : zs.foldl crc16Byte 19596 = 39787 := by decide +kernel
  have h5 : zs.foldl crc16Byte 39787 = 55833 := by decide +kernel
  have h6 : zs.foldl crc16Byte 55833 = 13971 := by decide +kernel
  simp only [zeros318, List.foldl_append, h1, h2, h3, h4, h5, h6]

theorem last_bytes_pass : frameOk lastBytes = true := by
  have h : bvBytes 320 (lastBytes &&& ~~~(0xFFFF#2560)) = zeros318 ++ [54, 147] := by decide +kernel
  unfold frameOk crc16
  rw [h, List.foldl_append, crc_of_zeros]
  decide +kernel

theorem zeros_fail : frameOk 0 = false := by
  have h : bvBytes 320 ((0 : FrameMsg) &&& ~~~(0xFFFF#2560)) = zeros318 ++ [0, 0] := by decide +kernel
  unfold frameOk crc16
  rw [h, List.foldl_append, crc_of_zeros]
  decide +kernel

theorem gmul_zero (x : Nat) : gmul 0 x = 0 := by simp [gmul, gmulN, gadd, gx]

theorem syndromes_zeros (n : Nat) (l : List Nat) : syndromes (List.replicate n 0 ++ l) = syndromes l := by
  have h : ∀ x, polyAt x (List.replicate n 0 ++ l) = polyAt x l := fun x => by
    unfold polyAt
    rw [List.foldl_append]
    congr 1
    induction n with
    | zero => rfl
    | succ n ih => simpa [List.replicate_succ, gmul_zero, gadd] using ih
  unfold syndromes
  simp only [h]

/-- The last symbols of the frame's codeword, its parity among them; and nine symbols with an error locator of degree 9. -/
def lastSymbols : List Nat := [864, 588, 261, 720, 809, 553, 488, 201, 331, 183, 369, 856, 271, 638, 63, 742, 513, 676]
def nine : List Nat := [1, 255, 778, 427, 1006, 29, 677, 665, 400]

/-- The codeword of those symbols after `n` zeros. -/
def word (n : Nat) (l : List Nat) : Codeword := BitVec.ofNat 2720 (ofSymbols (List.replicate n 0 ++ l))

theorem last_bytes_decode : rsDecode (word 254 lastSymbols) = some (List.replicate 254 0 ++ lastSymbols, []) := by
  have h : symbolsOf 272 (word 254 lastSymbols).toNat = List.replicate 254 0 ++ lastSymbols := by decide +kernel
  have g : (syndromes lastSymbols).all (fun x => x = 0) = true := by decide +kernel
  unfold rsDecode
  simp only [h, syndromes_zeros, g]
  rfl

theorem zeros_decode : rsDecode (word 254 (List.replicate 18 0)) = some (List.replicate 254 0 ++ List.replicate 18 0, []) := by
  have h : symbolsOf 272 (word 254 (List.replicate 18 0)).toNat = List.replicate 254 0 ++ List.replicate 18 0 := by decide +kernel
  have g : (syndromes (List.replicate 18 0)).all (fun x => x = 0) = true := by decide +kernel
  unfold rsDecode
  simp only [h, syndromes_zeros, g]
  rfl

theorem nine_symbols_cannot_be_corrected : rsDecode (word 263 nine) = none := by
  have h : symbolsOf 272 (word 263 nine).toNat = List.replicate 263 0 ++ nine := by decide +kernel
  have e : syndromes nine = [0, 0, 0, 0, 0, 0, 0, 0, 736, 1017, 609, 996, 747, 82, 468, 945] := by decide +kernel
  have g : 8 < ((List.range 16).foldl (bmStep [0, 0, 0, 0, 0, 0, 0, 0, 736, 1017, 609, 996, 747, 82, 468, 945]) {}).l := by
    decide +kernel
  unfold rsDecode
  simp only [h, syndromes_zeros, e]
  simp [g]

/-- The symbols of a first frame of channel 0 from its kind on: sequence number 0, data chosen so that its check is 0; with its parity. -/
def acceptTail : List Nat := [1008, 339, 738, 891, 155, 151, 67, 482, 984, 523, 58, 697, 207, 15, 868, 133, 248, 538]
def acceptSymbols : List Nat := [4] ++ (List.replicate 50 0 ++ (List.replicate 50 0 ++ (List.replicate 50 0 ++ (List.replicate 50 0
  ++ (List.replicate 47 0 ++ acceptTail)))))

/-- All syndromes advanced by one symbol. -/
def synStep (as : List Nat) (c : Nat) : List Nat :=
  List.zipWith (fun i a => gadd (gmul a (galpha i)) c) (List.range 16) as

theorem syndromes_eq_steps (l : List Nat) : syndromes l = l.foldl synStep (List.replicate 16 0) := by
  have h : ∀ (l : List Nat) (a : Nat → Nat), (List.range 16).map (fun i => l.foldl (fun a c => gadd (gmul a (galpha i)) c) (a i))
      = l.foldl synStep ((List.range 16).map a) := fun l => by
    induction l with
    | nil => exact fun a => rfl
    | cons c l ih =>
      intro a
      simp only [List.foldl_cons]
      rw [ih (fun i => gadd (gmul (a i) (galpha i)) c)]
      congr 1
  exact h l (fun _ => 0)

theorem accept_symbols_pass : (syndromes acceptSymbols).all (fun x => x = 0) = true := by
  have h0 : [4].foldl synStep (List.replicate 16 0) =
      [4, 4, 4, 4, 4, 4, 4, 4, 4, 4, 4, 4, 4, 4, 4, 4] := by decide +kernel
  have h1 : (List.replicate 50 0).foldl synStep [4, 4, 4, 4, 4, 4, 4, 4, 4, 4, 4, 4, 4, 4, 4, 4] =
      [4, 61, 86, 259, 76, 919, 403, 785, 29, 446, 947, 70, 503, 276, 914, 163] := by decide +kernel
  have h2 : (List.replicate 50 0).foldl synStep [4, 61, 86, 259, 76, 919, 403, 785, 29, 446, 947, 70, 503, 276, 914, 163] =
      [4, 86, 76, 403, 29, 947, 503, 914, 342, 481, 695, 12, 250, 212, 693, 39] := by decide +kernel
  have h3 : (List.replicate 50 0).foldl synStep [4, 86, 76, 403, 29, 947, 503, 914, 342, 481, 695, 12, 250, 212, 693, 39] =
      [4, 259, 403, 446, 503, 163, 481, 800, 250, 176, 39, 202, 191, 737, 976, 201] := by decide +kernel
  have h4 : (List.replicate 50 0).foldl synStep [4, 259, 403, 446, 503, 163, 481, 800, 250, 176, 39, 202, 191, 737, 976, 201] =
      [4, 76, 29, 503, 342, 695, 250, 693, 220, 191, 547, 20, 380, 105, 546, 7] := by decide +kernel
  have h5 : (List.replicate 47 0).foldl synStep [4, 76, 29, 503, 342, 695, 250, 693, 220, 191, 547, 20, 380, 105, 546, 7] =
      [4, 1013, 699, 755, 567, 162, 558, 369, 519, 250, 293, 282, 853, 875, 219, 845] := by decide +kernel
  rw [syndromes_eq_steps]
  simp only [acceptSymbols, List.foldl_append, h0, h1, h2, h3, h4, h5]
  decide +kernel

theorem accept_decodes : rsDecode (word 6 acceptSymbols) = some (List.replicate 6 0 ++ acceptSymbols, []) := by
  have h : symbolsOf 272 (word 6 acceptSymbols).toNat = List.replicate 6 0 ++ acceptSymbols := by decide +kernel
  unfold rsDecode
  simp only [h, syndromes_zeros, accept_symbols_pass]
  rfl

/-- The frame of those symbols. -/
def acceptFrame : FrameMsg := BitVec.ofNat 2560 (ofSymbols ((List.replicate 6 0 ++ acceptSymbols).take 256))

/-- Its first 53 bytes. -/
def acceptHead : List Byte := List.replicate 7 0 ++ [64] ++ List.replicate 45 0

theorem accept_passes : frameOk acceptFrame = true := by
  have h : bvBytes 320 (acceptFrame &&& ~~~(0xFFFF#2560)) =
      acceptHead ++ (zs ++ (zs ++ (zs ++ (zs ++ (zs ++ [255, 84]))))) := by decide +kernel
  have h1 : acceptHead.foldl crc16Byte 0xFFFF = 5738 := by decide +kernel
  have h2 : zs.foldl crc16Byte 5738 = 51280 := by decide +kernel
  have h3 : zs.foldl crc16Byte 51280 = 62814 := by decide +kernel
  have h4 : zs.foldl crc16Byte 62814 = 14574 := by decide +kernel
  have h5 : zs.foldl crc16Byte 14574 = 40976 := by decide +kernel
  have h6 : zs.foldl crc16Byte 40976 = 65364 := by decide +kernel
  unfold frameOk crc16
  rw [h]
  simp only [List.foldl_append, h1, h2, h3, h4, h5, h6] at *
  decide +kernel

theorem witness_frame_receipt : (let s := (linkIn .up on).updLink 20 (fun l => { l with sq := { l.sq with rbuf := [frameOf 0] } })
    s.hasLink 10 0 = true ∧ (s.link 20).phase = .up ∧ frameKind lastBytes = 0 ∧ frameItem lastBytes = 0
    ∧ frameSeq lastBytes = (s.link 20).sq.rxN ∧ (s.link 20).sq.rbuf = [frameOf 0]
    ∧ seqDist (frameOf 0).seq (frameAck lastBytes) ≤ ([] : List TxFrame).length + 1)
    ∧ BitVec.ofNat 2560 (ofSymbols ((List.replicate 254 0 ++ lastSymbols).take 256)) = lastBytes
    ∧ (BitVec.ofNat 2560 (ofSymbols ((List.replicate 254 0 ++ List.replicate 18 0).take 256)) : FrameMsg) = 0 := by decide +kernel

theorem witness_accepted_frames : frameKind acceptFrame = 1 ∧ frameItem acceptFrame = 0
    ∧ ∀ n ∈ [(0 : BitVec 12), 1, 4095], (let s := (linkIn .up on).updLink 20 (fun l => { l with sq := { l.sq with rxN := n } })
      (s.link 20).takeAck (frameAck acceptFrame) = s.link 20 ∧ (s.link 20).reg.mode = false ∧ (s.link 20).sq.window = []
      ∧ seqDist (s.link 20).sq.rxN (frameSeq acceptFrame) = if n = 0 then 0 else if n = 1 then 4095 else 1) := by decide +kernel

theorem witness_spare : (let s := (linkIn .up on).updLink 20 (fun l => { l with reg := { l.reg with laneThr := 0 } })
    let s := s.updPort 10 (fun p => { p with laneWin := [(3, [0])] })
    s.hasPort 10 = true ∧ s.laneLink 10 3 = 20 ∧ (s.link 20).phase = .up ∧ (s.port 10).laneDegr.getLsbD 3 = false
    ∧ 256 * (s.link 20).reg.laneThr.toNat < ((SMap.get [] (s.port 10).laneWin 3).filter (fun t => (s.link 20).rxCount < t + 1048576)).length
    ∧ s.spareServes 10 3 false = true ∧ s.spareServes 10 3 true = true ∧ (s.port 10).sub = none ∧ (s.port 10).subst = none ∧ (s.port 10).subTx = none
    ∧ (s.port 10).mirror = none)
    ∧ (let s := (linkIn .up on).updPort 10 (fun p => { p with subst := some (3, 999000) })
      (s.link 20).phase = .up ∧ (s.port 10).subst = some (3, 999000) ∧ (s.port 10).mirror = none ∧ Claims.comes s (999000 + 65536))
    ∧ ((on.updPort 10 (fun p => { p with mirror := some (3, 999000) })).port 10).mirror = some (3, 999000) := by
  unfold Claims.comes; decide +kernel

theorem witness_retrains : (let s := (linkIn .up on).updLink 20 (fun l => { l with ueSlots := [0, 0, 0, 0] })
    s.hasLink 10 0 = true ∧ (s.link 20).phase = .up ∧ (s.link 20).pauseAt = none ∧ s.laneLink 10 3 = 20
    ∧ (s.port 10).laneFail.getLsbD 3 = false ∧ s.hasPort 10 = true
    ∧ 4 ≤ ((s.link 20).ueSlots.filter (fun t => (s.link 20).rxCount < t + 16)).length ∧ s.lowPort 10 = 10 ∧ s.linkInUse 20 = false)
    ∧ (let s := (linkIn .fast on).updLink 20 (fun l => { l with pauseAt := some 999000 })
      (s.link 20).phase = .fast ∧ (s.link 20).pauseAt = some 999000 ∧ Claims.comes s (999000 + 65536))
    ∧ on.hasLink 10 1 = false := by
  unfold Claims.comes; decide +kernel

def trained (v : BitVec 4) : TrainReport := ⟨v, 0x00FF, 0x00FF, 1, 1, 7, 1, 4, false, true, 40, 1000500⟩

theorem witness_trainings : (let s := linkIn .full on
    s.hasLink 10 0 = true ∧ (s.link 20).phase = .full ∧ (trained 1).version ≠ 2 ∧ (trained 2).version = 2 ∧ s.form 10 = .whole
    ∧ (trained 2).rxOk = 0x00FF ∧ (trained 2).txOk = 0x00FF)
    ∧ (let s := (linkIn .waitResume on).updLink 20 (fun l => { l with resumeAt := 1000500, kept := true, farFresh := false })
      (s.link 20).phase = .waitResume ∧ Claims.comes s (s.link 20).resumeAt ∧ (s.link 20).kept = true ∧ (s.link 20).farFresh = false)
    ∧ (let s := (linkIn .waitResume on).updLink 20 (fun l => { l with resumeAt := 1000500 })
      (s.link 20).phase = .waitResume ∧ (s.link 20).kept = false) := by
  unfold Claims.comes; decide +kernel

/-! ### Witnesses: descriptors -/

/-- A descriptor of the operator queue, and one of queue 1. -/
def hdr0 : DescHdr := { queue := 0, flags := 0, tag := 9, res := false }
def hdr1 : DescHdr := { hdr0 with queue := 1 }

/-- The foyer has read one descriptor of queue 0 and one of queue 1. -/
def posted (s : State) : State := ((queued s).updQueue 0 (fun q => { q with read := 1 })).updQueue 1 (fun q => { q with
  en := true, idle := false, sqb := 0x300000, cqb := 0x400000, cqHead := 0xFFFF, slice := 5, read := 1 })

theorem witness_descriptors : Claims.starts (posted (holding (landing on))) hdr0 ∧ Claims.starts (posted on) hdr1
    ∧ (let s := posted (holding (landing on))
      s.flight 9 = some flightX ∧ s.actsFor hdr0 flightX.slice = true ∧ s.ordFinal flightX.slice.toNat 9 = false
      ∧ s.stair.queue.length < 256 ∧ s.mayUse hdr0 15 = true)
    ∧ (let s := (posted on).updChan 15 (fun x => { x with halt := true })
      Claims.starts s hdr0 ∧ s.mayUse hdr0 15 = true ∧ (s.chan 15).halt = true ∧ (s.chan 15).act = none ∧ (s.chan 15).shd = none
      ∧ (s.chan 15).wait = [])
    ∧ (posted on).mayStart { hdr0 with flags := 4 } = true ∧ (posted on).stewardBusy { hdr0 with flags := 4 } = false
    ∧ descBad { hdr0 with flags := 4 } = true ∧ ((posted on).queue 0).idle = false
    ∧ (posted on).mayStart { hdr0 with badOp := some 0x13 } = true ∧ (posted on).stewardBusy { hdr0 with badOp := some 0x13 } = false
    ∧ opReserved 0x13 = true := by
  unfold Claims.starts; decide +kernel

/-- The section table of one entry, the place up to byte 96, and a table of two landings: the binary after its header. -/
def binRest : List Byte := leBytes 16 (1 + 96 * 2 ^ 64 + 32 * 2 ^ 96) ++ leBytes 16 0
  ++ leBytes 16 (63 * 2 ^ 32 + 64 * 2 ^ 48) ++ leBytes 16 (1000 + 63 * 2 ^ 32 + 64 * 2 ^ 48 + 8 * 2 ^ 64)

/-- A binary of two landings with no share for pace B0 1, and the book entry that makes it flight `f`. -/
def bin : Binary :=
  { image := leBytes 4 0x4C465641 ++ leBytes 4 (1 + 0xB001 * 2 ^ 16) ++ leBytes 4 (16 * 2 ^ 16) ++ leBytes 4 (2 + 2 ^ 16) ++ leBytes 8 128
      ++ leBytes 8 (crc64 binRest).toNat ++ leBytes 32 0 ++ binRest
    bodies := [] }

def entry (f : BitVec 16) : BookEntry := { flight := f, need := 1, len := 128, bin, preds := [], succs := [], res := false }

def goodBook : List BookEntry := [entry 0, entry 4095]

theorem witness_book : (let s := posted (landing on)
    Claims.starts s hdr0 ∧ goodBook ≠ [] ∧ goodBook.length ≤ 4096 ∧ goodBook.any entryReserved = false ∧ (s.sl 5).admitted = true
    ∧ s.actsFor hdr0 5 = true ∧ s.ahead 5 8 = true
    ∧ (match (Claims.taken s hdr0).resideAll 5 8 0 goodBook with | .inl _ => true | .inr _ => false) = true
    ∧ (match (Claims.taken s hdr0).resideAll 5 8 0 [entry 3, entry 3] with | .inl _ => false | .inr x => decide (x = (1, 10, 0xFFFF, 0))) = true) := by
  unfold Claims.starts; decide +kernel

theorem witness_evict_and_retire : (let s := posted (holding (landing on))
    s.flight 9 = some flightX ∧ s.actsFor hdr0 flightX.slice = true ∧ flightX.run = none
    ∧ (s.sl flightX.slice.toNat).land.launch.contains 9 = false ∧ (s.sl 5).admitted = true ∧ s.actsFor hdr0 5 = true
    ∧ s.ordFinal 5 9 = false)
    ∧ (let x := { flightX with run := some ⟨1, 0, 0, 0, true⟩ }
      let s := (posted (landing on)).setFlight 9 (some x)
      Claims.starts s hdr0 ∧ s.flight 9 = some x ∧ s.actsFor hdr0 x.slice = true ∧ x.run ≠ none)
    ∧ (let s := posted (landing on)
      Claims.starts s hdr0 ∧ hdr0.queue.val = 0 ∧ s.flightsOf 5 = [] ∧ (s.sl 5).evicts = [] ∧ (s.sl 5).writes = []) := by
  unfold Claims.starts; decide +kernel

/-- An eviction of flight 9 at ordinal 7 is due in the landing of slice 5. -/
def evicting (x : Flight) : State := ((queued (landing on)).setFlight 9 (some x)).updSl 5 (fun y => { y with evicts := [⟨7, 9, hdr0⟩] })

theorem witness_flight_eviction : (let s := evicting { flightX with cand := false }
    (s.sl 5).evicts = [⟨7, 9, hdr0⟩] ∧ (s.atReport 5 7).isSome = true ∧ (s.queue 0).err = false ∧ (s.queue 0).idle = false
    ∧ (s.sl 5).land.launch.contains 9 = false
    ∧ ((((((s.atReport 5 7).getD s).updSl 5 (fun y => { y with evicts := [] })).startBooks 5).countTokens 5).launchSet 5) = [])
    ∧ (let s := evicting { flightX with run := some ⟨1, 0, 0, 0, true⟩ }
      (s.sl 5).evicts = [⟨7, 9, hdr0⟩] ∧ (s.atReport 5 7).isSome = true) := by decide +kernel

/-- An admission of slice 6 of one part, this one. -/
def admission : AdmitRec := ⟨6, 0, 0, 1, 0xFFFF, 0, 0, 0, 65536, 0, [], false⟩

theorem witness_admit : (let s := posted { on with cfg := { on.cfg with chip := 1 } }
    Claims.starts s hdr0 ∧ Claims.starts s hdr1 ∧ s.sec.walkAll = false ∧ s.sec.walkWait = false ∧ hdr0.queue.val = 0
    ∧ s.admitFail 32 admission = none ∧ (s.sl 6).kept = none
    ∧ (let t := s.updSl 6 (fun x => { x with kept := some ⟨20, 7, 0, 0, 0⟩ })
      Claims.starts t hdr0 ∧ t.admitFail 32 admission = none ∧ (t.sl 6).kept = some ⟨20, 7, 0, 0, 0⟩) ∧ masterChip (recId admission) = s.cfg.chip.toNat ∧ hdr1.queue.val ≠ 0)
    ∧ (let s := posted { on with cfg := { on.cfg with chip := 2 } }
      Claims.starts s hdr0 ∧ s.admitFail 32 admission = some 3) := by
  unfold Claims.starts; decide +kernel

/-! ### Witnesses: transfers -/

theorem dmaAddr_plain (s : State) (h : s.mcs = []) (a : Nat) : s.dmaAddr a = a := by
  have hc : ∀ l, s.mapLine l false = l := fun l => by
    have hn : (List.range 8).find? (fun _ => false) = none := rfl
    simp [State.mapLine, State.mc, h, SMap.get, MemCtl.regionAt, hn]
  unfold State.dmaAddr
  rw [hc]
  omega

/-- A transfer of 4 bytes on channel 15 between host address 0x500000 and HBM offset 0x1000. -/
def xfer (len : Word) : DmaDesc := ⟨0x500000, 0x1000, len, 15, 0, 0, 0, 0xFF, false, false, 0, 0⟩

theorem witness_transfers : (let s := posted on
    Claims.starts s hdr0 ∧ s.xferRefused hdr0 (xfer 4) = false ∧ s.mayUse hdr0 (xfer 4).chan = true ∧ (s.chan 15).act = none
    ∧ (s.chan 15).halt = false ∧ (xfer 4).gateSlice = 0xFF ∧ (xfer 4).crcMode = 0 ∧ ([1, 2, 3, 4] : List Byte).length = (xfer 4).len.toNat
    ∧ s.xferBad hdr0 (xfer 4) true = none ∧ s.xferBad hdr0 (xfer 4) false = none ∧ s.upsets = [] ∧ s.mcs = []) := by
  unfold Claims.starts; decide +kernel

/-- A transfer that channel 15 holds. -/
def job (started gated : Bool) (d : DmaDesc) : DmaJob :=
  { op := 1, hdr := hdr0, d, data := [1, 2, 3, 4], ups := [], gated, started, done := 4, retries := 2, status := 0, detail := 4, crc := none }

def onChannel (j : DmaJob) : State := (queued (sliceIn .running on)).updChan 15 (fun x => { x with act := some j })

/-- The gate of the transfer: the landing of ordinal 7 of slice 5, commit only. -/
def gate : DmaDesc := { xfer 4 with gateSlice := 5, gateOrd := 7, commitOnly := true }

theorem witness_transfer_ends : (let s := onChannel (job true false (xfer 4))
    (s.chan 15).act = some (job true false (xfer 4)) ∧ (s.chan 15).shd = none ∧ (s.chan 15).wait = [] ∧ (s.queue 0).err = false
    ∧ (s.queue 0).idle = false ∧ moved (job true false (xfer 4)).status = true ∧ moved 6 = false
    ∧ s.xferBad hdr0 (xfer 4) true = none ∧ s.xferBad hdr0 (xfer 4) false = none ∧ (s.unschedXfer 0x1000 4 true).isSome = true
    ∧ (s.unschedXfer 0x1000 4 false).isSome = true ∧ s.mcs = [] ∧ s.upsets = []
    ∧ (s.queue 0).cqb.toNat + (s.queue 0).cqW.toNat % 2 ^ (s.queue 0).cqLog.toNat * 128 + 128 ≤ (xfer 4).addr.toNat
    ∧ (job true false (xfer 4)).retries.toNat < (job true false (xfer 4)).tries.toNat)
    ∧ ({ job true false (xfer 4) with retries := 3 } : DmaJob).tries.toNat ≤ (3#3).toNat
    ∧ (let s := onChannel (job false true gate)
      s.gateOpen gate = false ∧ s.foyer.stor = [])
    ∧ (let s := (onChannel (job false true gate)).updSl 5 (fun x => { x with
        tel := { x.tel with anyEnded := true, lastOrd := 7 }, err := { x.err with commits := [(7, true)] } })
      (s.chan 15).halt = false ∧ s.gateOpen gate = true ∧ s.gateAbort gate = some 7)
    ∧ (let s := (onChannel (job false true gate)).updSl 5 (fun x => { x with tel := { x.tel with anyEnded := true, lastOrd := 7 } })
      s.gateOpen gate = true ∧ s.gateAbort gate = none ∧ s.xferBad hdr0 gate true = none ∧ s.foyer.stor = [] ∧ s.mcs = []) := by
  decide +kernel

/-- A storage transfer of one parcel, on port 10, between storage and HBM offset 0x1000; and one that waits for `n` answers. -/
def store : DmaDesc := { xfer 64 with chan := 10, addr := 0x00070000000000 }
def stor (op : Byte) (n : Nat) : StorJob := { op, hdr := hdr0, d := store, gated := false, left := n, status := 0, detail := 64, crc := none }

def answered (op : Byte) (n : Nat) : State := { queued on with foyer := { on.foyer with stor := [stor op n] } }

def answer : StorageParcel := { addr := 0xFFFF#16 ++ 0x70000000000#48, tag := 9, len := 64, status := 0, data := List.replicate 64 7 }

theorem witness_storage : (let s := posted on
    Claims.starts s hdr0 ∧ s.xferRefused hdr0 store = false ∧ s.hasPort 10 = true ∧ s.role 10 0 = 0x20 ∧ store.gateSlice = 0xFF
    ∧ s.foyer.stor = [] ∧ store.crcMode = 0 ∧ s.xferBad hdr0 store true = none ∧ s.xferBad hdr0 store false = none ∧ s.upsets = [])
    ∧ (∀ n ∈ [1, 2], ∀ m ∈ [3, 4], let op : Byte := BitVec.ofNat 8 m; let s := answered op n
      s.hasPort 10 = true ∧ s.mine 10 answer = true ∧ s.inbox = [] ∧ s.foyer.stor = [stor op n] ∧ (stor op n).d.chan.toNat = 10
      ∧ (stor op n).hdr.tag = answer.tag ∧ answer.status = 0 ∧ s.mcs = [] ∧ s.upsets = []
      ∧ (stor op n).d.off.toNat + (stor op n).d.len.toNat ≤ hbmBytes s.cfg.grade ∧ (s.queue 0).err = false ∧ (s.queue 0).idle = false
      ∧ (localOff answer.addr + 2 ^ 48 - localOff (stor op n).d.addr) % 2 ^ 48 + answer.data.length ≤ (stor op n).d.len.toNat
      ∧ 0 < answer.data.length ∧ s.xferBad hdr0 store true = none
      ∧ (s.unschedXfer ((stor op n).d.off.toNat + (localOff answer.addr + 2 ^ 48 - localOff (stor op n).d.addr) % 2 ^ 48)
          answer.data.length true).isSome = true) := by
  unfold Claims.starts; decide +kernel

theorem witness_poll : (let words : List Word64 := 0x0000000000000003 :: List.replicate 15 0
    let s := queued on
    words.length = 16 ∧ (s.queue 0).en = true ∧ Claims.comes s s.foyer.pollAt
    ∧ (∀ n < 16, (s.queue n).en = false ∨ (s.queue n).badWord (words.getD n 0) = false))
    ∧ (on.queue 15).en = false ∧ (on.queue 15).idle = true ∧ (0x80000000#32).getLsbD 31 = true
    ∧ (let s := queued on
      (s.queue 0).en = true ∧ (0x044000FF#32).getLsbD 31 = false ∧ (0x044000FF#32).getLsbD 30 = (s.queue 0).cqRo
      ∧ (0x044000FF#32).extractLsb' 24 4 = (s.queue 0).sqLog ∧ (0x044000FF#32).extractLsb' 20 4 = (s.queue 0).cqLog
      ∧ (0x044000FF#32).extractLsb' 0 8 = (s.queue 0).slice)
    ∧ (on.queue 3).en = false ∧ (on.queue 3).read = 0 ∧ (on.queue 3).doing = 0 ∧ on.flying = [] := by
  unfold Claims.comes; decide +kernel

/-! ### Witnesses: registers -/

theorem witness_register_writes : (∃ r, on.regAt 0x10 = some r) ∧ (∃ r, on.regAt 0x200008 = some r ∧ ((hallIn .running on).writeReg (.halVmap 3) 0).isNone = true)
    ∧ on.regAt 0x3 = none ∧ on.hallQuiet 3 = true ∧ on.cfg.stepping = .b0 ∧ on.hallShared 3 = false ∧ ((hallIn .running on).hall 3).st = .running
    ∧ on.hasStack 2 = true ∧ (SMap.get {} (on.mc 2).cregs 7).en = false ∧ 1 ≤ ((20480#32).extractLsb' 0 16).toNat
    ∧ ((20480#32).extractLsb' 0 16).toNat ≤ 20480 ∧ (on.sl 254).admitted = false ∧ ((65536#32).extractLsb' 0 17).toNat ≤ 65536
    ∧ 63 ≤ ((0x003F0040#32).extractLsb' 16 11).toNat ∧ ((0x003F0040#32).extractLsb' 0 12).toNat ≤ ((0x003F0040#32).extractLsb' 16 11).toNat + 1 := by
  refine ⟨⟨_, rfl⟩, ⟨_, rfl, ?_⟩, ?_⟩ <;> decide +kernel

theorem witness_fabric_registers : (0x00100000#32).extractLsb' 0 2 = on.linkmap ∧ (0x00100000#32).getLsbD 2 = on.mesh2d
    ∧ (0x00100000#32).extractLsb' 16 8 ≠ 0 ∧ (sliceIn .running on).admitted ≠ [] ∧ (0x00100004#32).getLsbD 2 ≠ (sliceIn .running on).mesh2d
    ∧ on.hasPort 10 = true ∧ on.admitted = [] ∧ (0x3#32).getLsbD 0 = (on.port 10).en
    ∧ (let s := sliceIn .running on
      s.hasPort 10 = true ∧ s.lowPort 10 = 10 ∧ (0x0005FFFF#32).getLsbD 31 = false ∧ (0x0005FFFF#32).extractLsb' 16 8 = 5#8
      ∧ (s.sl 5).admitted = true ∧ s.hasFlights 5 = false ∧ (s.ctx 640).en = false) := by decide +kernel

theorem witness_reg_write : (let s := posted (landing on)
    Claims.starts s hdr0 ∧ hdr0.queue.val = 0 ∧ (0x10 : Word).toNat % 4 = 0 ∧ (s.sl 5).admitted = true ∧ s.ordFinal 5 9 = false)
    ∧ (let s := posted (landing on)
      ((s.regAt 0x300000).bind (fun r => (Claims.taken s hdr0).writeReg r 0x00200000)).isSome = true)
    ∧ (let s := (queued (landing on)).updSl 5 (fun y => { y with writes := [⟨7, 0x300000, 0x00200000, hdr0⟩] })
      (s.sl 5).writes = [⟨7, 0x300000, 0x00200000, hdr0⟩]
      ∧ ((s.atReport 5 7).bind (fun s1 => (s.regAt 0x300000).bind (fun r =>
          (s1.updSl 5 (fun y => { y with writes := [] })).writeReg r 0x00200000))).isSome = true) := by
  unfold Claims.starts; decide +kernel

/-! ### Witnesses: save, restarts and power -/

theorem witness_save : on.flt.status ≠ 2 ∧ on.flt.status ≠ 4 ∧ (on.sl 5).admitted = false
    ∧ (let s := paired 1 (sliceIn .running on)
      (s.sl 5).admitted = true ∧ s.isMaster 5 = true)
    ∧ (let s := paired 1 (sliceIn .saved on)
      (s.sl 5).phase = .saved ∧ s.isMaster 5 = true ∧ (s.sl 5).reports = [])
    ∧ (let s := (paired 1 (sliceIn .saved on)).updSl 5 (fun x => { x with reports := [rep] })
      (s.sl 5).phase = .saved ∧ s.isMaster 5 = true ∧ (s.sl 5).reports = [rep])
    ∧ ({ on with flt := { on.flt with status := 2 } } : State).flt.status = 2 := by decide +kernel

theorem witness_restart : on.sec.boot = 2 ∧ (on.sec.restartAt.filter (fun t => on.clk.tb3.toNat < t + 1000000000)).length < 2
    ∧ (let s : State := { on with sec := { on.sec with restartAt := [0, 0] } }
      s.sec.boot = 2 ∧ 2 ≤ (s.sec.restartAt.filter (fun t => s.clk.tb3.toNat < t + 1000000000)).length) := by decide +kernel

/-- Main power is off. -/
def off : State := { on with pwr := { on.pwr with state := 1, in54 := false, v54 := 0 } }

theorem witness_supplies : (inRange 47000 45000 62000 61000 off.pwr.in54 off.pwr.v54 54000 = true ∧ off.pwr.state = 1
      ∧ off.pwr.main = true ∧ off.sec.boot = 2 ∧ off.sec.noRecord = false ∧ off.clk.running = true)
    ∧ (inRange 47000 45000 62000 61000 on.pwr.in54 on.pwr.v54 54000 = true ∧ on.pwr.state = 3 ∧ on.pwr.in54 = true)
    ∧ (inRange 47000 45000 62000 61000 on.pwr.in54 on.pwr.v54 44999 = false ∧ on.pwr.in12 = true)
    ∧ (let s : State := { on with pwr := { on.pwr with in12 := false } }
      inRange 47000 45000 62000 61000 s.pwr.in54 s.pwr.v54 44999 = false ∧ s.pwr.in54 = true ∧ s.pwr.in12 = false)
    ∧ ({ on with pwr := { on.pwr with state := 2 } } : State).pwr.state = 2 ∧ on.admitted = [] ∧ (sliceIn .running on).admitted ≠ []
    ∧ off.pwr.in54 = false := by decide +kernel

theorem witness_pace : (let s := on.updHall 3 (fun h => { h with st := .idle, pwr := { h.pwr with vcode := 100, boostAsked := some 5, sampleAt := 1000064 } })
    let h := s.hall 3
    (s.cMin 3 [7, 8]).isSome = true ∧ Claims.comes s h.pwr.sampleAt ∧ h.powered = true ∧ s.mainOn = true ∧ h.pwr.vcode.toNat ≤ 160 ∧ h.pwr.boostAsked = some 5
    ∧ h.pwr.boost = false ∧ h.pwr.failed = false
    ∧ s.flt.ringBase.toNat * 2 ^ 21 + 2 ^ s.flt.ringLog.toNat * 64 ≤ storeBase ∧ s.clk.running = true ∧ (s.now + 199) / 200 * 200 < 2 ^ 64)
    ∧ (let s := on.updHall 3 (fun h => { h with pwr := { h.pwr with boostAsked := some 5, boost := true } })
      (s.hall 3).pwr.boostAsked = some 5 ∧ (s.hall 3).pwr.boost = true)
    ∧ 256 ≤ ((on.updHall 3 (fun h => { h with st := .idle, pwr := { h.pwr with short := 256 } })).hall 3).pwr.short := by
  unfold Claims.comes; decide +kernel

/-- Hall 35 in state `st`, with the wake and sleep requests given. -/
def asked (st : HallSt) (wake sleep : BitVec 64) : State :=
  { (on.updHall 35 (fun h => { h with st })) with pwr := { on.pwr with wake, sleep } }

theorem witness_sleep_and_wake : BitVec.ofNat 32 (2 ^ 3) = 8#32
    ∧ ((asked .asleep 0 0).hall 35).st = .asleep ∧ (asked .asleep 0 0).pwr.sleep.getLsbD 35 = false
    ∧ ((asked .idle 0 (BitVec.twoPow 64 35)).hall 35).st = .idle ∧ (asked .idle 0 (BitVec.twoPow 64 35)).pwr.sleep.getLsbD 35 = true
    ∧ (asked .idle 0 0).pwr.wake.getLsbD 35 = false
    ∧ ((asked .asleep (BitVec.twoPow 64 35) 0).hall 35).st = .asleep ∧ (asked .asleep (BitVec.twoPow 64 35) 0).pwr.wake.getLsbD 35 = true
    ∧ ((asked .withdrawn 0 0).hall 35).st = .withdrawn
    ∧ (let s := asked .asleep (BitVec.twoPow 64 35) 0
      ((List.range 64).filter (fun ph => s.pwr.wake.getLsbD ph && (s.hall ph).st = .asleep)).take 4 ≠ [] ∧ s.mainOn = true
      ∧ Claims.comes s 0)
    ∧ (let s := on.updHall 35 (fun h => { h with st := .waking, pwr := { h.pwr with wakeAt := some 1004160 } })
      (s.hall 35).pwr.wakeAt = some 1004160 ∧ (s.hall 35).st = .waking ∧ (s.hall 35).pwr.stamp = none ∧ Claims.comes s 1004160) := by
  unfold Claims.comes; decide +kernel

theorem witness_temperatures : on.mainOn = true ∧ Claims.comes on on.pwr.sensorAt ∧ (∀ y ∈ [60, 109] ++ [50] ++ [40], y < 110) ∧ 0 < arcadesOf on.cfg.grade
    ∧ (on.hall 0).st ≠ .absent ∧ [110][0]? = some 110 ∧ on.hasStack 2 = true ∧ on.clk.running = true
    ∧ (on.now + 16383) / 16384 * 16384 < 2 ^ 64 := by
  unfold Claims.comes; decide +kernel

/-! ### Witnesses: time -/

theorem witness_reference : on.tim.refLost = false ∧ on.clk.running = true
    ∧ ({ on with tim := { on.tim with refLost := true } } : State).tim.refLost = true
    ∧ still.sec.boot = 2 ∧ still.clk.running = false ∧ still.clk.tb3.toNat + 100000000 < 2 ^ 64 := by decide +kernel

theorem witness_time_bases : (1#32).getLsbD 0 = true ∧ (2#32).getLsbD 0 = false ∧ (on.now + 63) / 64 * 64 < 2 ^ 64
    ∧ (∃ t, exec (.timTbRateWrite 1 7) on = .next t) ∧ (∃ t, exec (.timTbStepWrite 1 7) on = .next t) :=
  ⟨by decide, by decide, by decide +kernel, ⟨_, rfl⟩, ⟨_, rfl⟩⟩

/-- Pulse 3 armed on TB0. -/
def pulsing (mode : Bool) : State := { on with tim := { on.tim with pulses := [(3, { en := true, mode, per := 1000, next := 1000064 })] } }

theorem witness_pulses : (∀ mode, ((pulsing mode).pulse 3).en = true ∧ ((pulsing mode).pulse 3).base = 0
      ∧ Claims.comes (pulsing mode) ((pulsing mode).pulse 3).next.toNat ∧ ((pulsing mode).pulse 3).per ≠ 0
      ∧ ((pulsing mode).pulse 3).mode = mode ∧ (pulsing mode).now + ((pulsing mode).pulse 3).per.toNat < 2 ^ 63)
    ∧ (let s := on.updQueue 15 (fun q => { q with tenLo := 0x600001, tenAt := 0 })
      (s.queue 15).tenLo.getLsbD 0 = true ∧ s.clk.tb3.toNat ≥ (s.queue 15).tenAt) := by
  unfold Claims.comes; decide +kernel

/-! ### Witnesses: boot, resets and management -/

/-- The part right after reset with 54 V in range, and what a boot finds in it; `f` says whether its flash is good. -/
def fresh : State := { State.reset with pwr := { State.reset.pwr with in54 := true } }
def find (f : Bool) : BootFind :=
  { flash := f, puf := true, record := true, factory := true, identity := true, slotA := true, slotB := false, rootF := 0, rootA := 0
    rootB := 0, verA := 1, verB := 0, install := true, reference := true, linkmapStrap := false, roleStrap := false, flashvStrap := false
    sealOpen := false }

theorem witness_boot : fresh.sec.booted = false ∧ fresh.pwr.in54 = true ∧ fresh.pins.strapsHeld = false ∧ fresh.pins.sealOpen = false
    ∧ (find true).sealOpen = false ∧ (find true).flash = true ∧ (find true).flashvStrap = false ∧ (find true).puf = true ∧ fresh.rootOk (find true).factory (find true).rootF = true
    ∧ (find true).identity = true ∧ fresh.sec.flash.active = false ∧ fresh.imageOk (find true).slotA (find true).rootA (find true).verA = true
    ∧ (find true).record = true ∧ (find true).install = true ∧ (find true).reference = true ∧ fresh.pwr.state = 1
    ∧ (find false).flash = false := by decide +kernel

theorem witness_resets : on.sec.boot = 2 ∧ on.chans = [] ∧ on.foyer.stor = [] ∧ on.pins.resetPend = none
    ∧ (let s : State := { on with mcs := [(2, {})] }
      s.sec.boot = 2 ∧ s.mcs = [(2, {})])
    ∧ (let s : State := { on with pins := { on.pins with resetPend := some true } }
      s.sec.boot = 2 ∧ s.pins.resetPend = some true ∧ s.clk.tb3.toNat ≥ s.pins.resetAt)
    ∧ on.pwr.in54 = true ∧ on.sec.flash.sealBroken = false := by decide +kernel

theorem witness_management : on.sec.boot = 2 ∧ (∃ r, on.regAt 0x10 = some r) ∧ on.regAt 0x3 = none
    ∧ ((on.regAt 0x300000).bind (fun r => on.writeReg r 0x00200000)).isSome = true
    ∧ (((sliceIn .running on).regAt 0x300000).bind (fun r => (sliceIn .running on).writeReg r 0x00100004)).isNone = true
    ∧ (let s : State := { on with flt := { on.flt with seq := 9, ringN := 9 } }
      let back := (s.flt.seq - 8).toNat
      s.flt.waiting = [] ∧ 0 < back ∧ back ≤ 2 ^ s.flt.ringLog.toNat ∧ back ≤ s.flt.ringN) ∧ on.pwr.state = 3
    ∧ 1 < (2 : Byte).toNat ∧ ({ on with sec := { on.sec with boot := 1 } } : State).sec.boot = 1 :=
  ⟨by decide +kernel, ⟨_, rfl⟩, by decide +kernel, by decide +kernel, by decide +kernel, by decide +kernel, by decide +kernel, by decide, by decide +kernel⟩

theorem witness_attestation : on.sec.keyErased = false ∧ ({ on with sec := { on.sec with keyErased := true } } : State).sec.keyErased = true
    ∧ (333#16).toNat < ({ on with pins := { on.pins with report := List.replicate 334 0 } } : State).pins.report.length ∧ on.pins.report = []
    ∧ (∃ base size, fwTarget 1 = some (base, size) ∧ (0 : Word).toNat + (List.replicate 240 (7 : Byte)).length ≤ size)
    ∧ (∃ base size, fwTarget 0 = some (base, size)) ∧ (1 : Byte) ≠ (if on.sec.flash.active then 1 else 0)
    ∧ (0 : Byte) = (if on.sec.flash.active then 1 else 0) ∧ on.sec.flash.floor.toNat ≤ (3 : Word).toNat
    ∧ (3 : Word).toNat < ({ on with sec := { on.sec with flash := { on.sec.flash with floor := 4 } } } : State).sec.flash.floor.toNat := by
  refine ⟨by decide +kernel, by decide +kernel, by decide +kernel, by decide +kernel, ⟨_, _, rfl, by decide +kernel⟩, ⟨_, _, rfl⟩, ?_⟩
  decide +kernel

/-- Presence command `n` with argument `a` is pending. -/
def pendingPresence (n : BitVec 4) (a : Nat) (s : State) : State := { s with sec := { s.sec with presence := n, presArg := a } }

/-- Gallery 1023 is fenced in the flash. -/
def fencedFlash : State := { on with sec := { on.sec with flash := { on.sec.flash with fences := [(1023, true)] } } }

theorem witness_presence : on.sec.boot = 2 ∧ on.sec.presence = 0 ∧ (1 : Byte) = (if on.sec.flash.active then 0 else 1) ∧ on.admitted = []
    ∧ fencedFlash.fencedInFlash 1023 = true ∧ fencedFlash.sec.presence = 0 ∧ (pendingPresence 1 1 on).sec.presence ≠ 0
    ∧ on.clk.tb3.toNat < on.sec.presAt + 60000000000
    ∧ (pendingPresence 1 1 on).sec.presArg = (if (pendingPresence 1 1 on).sec.flash.active then 0 else 1)
    ∧ (pendingPresence 2 0 on).sec.presence = 2 ∧ (pendingPresence 3 0 on).sec.presence = 3
    ∧ (let s := pendingPresence 4 1023 fencedFlash
      s.sec.presence = 4 ∧ s.sec.presArg < 1024 ∧ s.fencedInFlash s.sec.presArg = true ∧ s.sec.presAt + 60000000000 < 2 ^ 64) := by
  decide +kernel

theorem witness_jtag : (on.pwr.in54 = true ∨ on.pwr.in12 = true) ∧ on.sec.debug = false ∧ on.pwr.state ≠ 1
    ∧ (let s : State := { off with pwr := { off.pwr with in12 := true }, sec := { off.sec with debug := true } }
      s.pwr.in12 = true ∧ s.pwr.state = 1 ∧ s.sec.debug = true) := by decide +kernel

/-! ### Results that the spec prints -/

/-- 00, worked example: the store of gallery 5 of hall 37. -/
theorem test_store_address : galIdx 37 5 = 597 ∧ storeAddr 597 0 = 0x10004AA00000 := by decide +kernel

/-- 05 R225: the CRC of the nine ASCII bytes "123456789". -/
theorem test_crc : crc64 [49, 50, 51, 52, 53, 54, 55, 56, 57] = 0x995DC9BBDF1939FA := by decide +kernel

/-- 04, worked example: lanes of 0x3F80A000 converted to BF16 in SR, with two draws of the generator. -/
theorem test_stochastic_rounding : (Fmt.bf16.convert .sr false 0x7C3E19D2 (fval32 0x3F80A000)).1 = 0x3F81
    ∧ (Fmt.bf16.convert .sr false 0xB2104C07 (fval32 0x3F80A000)).1 = 0x3F80 := by decide +kernel

/-- 04, worked example: the products 2^24, 1 and −2^24 summed in exact mode, in forerunner float mode, and with ea 2. -/
def sums : List (FVal × FVal) := [(0x6C, 0x6C), (0x3C, 0x3C), (0xEC, 0x6C)].map (fun p => (Fmt.e5m2.value p.1, Fmt.e5m2.value p.2))

theorem test_exact_sum : accRow .exact 0 0 sums = (1, 0)
    ∧ (readAcc .exact 0 0 .fp32 .rne false 0 1).1 = 0x3F800000
    ∧ (accRow .ffloat 0 0 sums).1 = 0 ∧ accRow .exact 2 0 sums = (0, flAccInexact) := by decide +kernel

/-- 04, worked example: EXP2 of 0.5. -/
theorem test_exp2 : (fuExp2 0x3F000000).1 = 0x3FB504F3 := by decide +kernel

/-- 05, worked example and Table 05.14: the bundle of an MMA and an LDH. -/
theorem test_bundle : decodeBundle 0x0010_0000_0000_24D0_19F8_0000_0000_0000_0000_0000_0000_120B_0000_0000_0000_0000 =
    some { delta := 1, lend := 0, ops := [(1, .mma ⟨1, 3, 4, 0, false, true, true, 63, false, 0⟩), (4, .ldh ⟨8, false, 5, true, 0⟩)] } := by
  decide +kernel

/-- 02, worked example: the hold of a rack. -/
theorem test_hold_length : holdLength 840 0 800 = 2048 := by decide +kernel

/-- 07 Table 07.9: the neighbours of position 0x123. -/
theorem test_neighbours : (List.range 9).map (cubeNbr 0x123) = [0x122, 0x121, 0x127, 0x12B, 0x133, 0x103, 0x160, 0x1A0, 0x020] := by
  decide +kernel

/-- 14, worked example: 10^9 ticks of TB1 with the rate 0xFFCA501B. -/
theorem test_disciplined_time_base : ({ on with clk := { on.clk with tb3 := 1000000000 }, tim := { on.tim with rate := [(0, 0xFFCA501B)] } } : State).timeBase 1
    = 999996800 := by decide +kernel

/-- 05 Table 05.3: at the closing bundle a loop iterates until its trips are done. -/
theorem test_loop : closeLoops 1 [⟨3, 1, 7⟩] = (some 7, [⟨3, 2, 7⟩]) ∧ closeLoops 1 [⟨3, 2, 7⟩] = (none, []) := by decide +kernel

end Sys2Proof.Tests
end

/-! # The exact accumulator does not see the order of its products (04 R157, R158)

An accumulator word is its 187 low bits, the K of R156, and its five flags above them. Whatever the word holds, a product adds to K
modulo 2^187 an amount of its own, raises word flags of its own and reports arithmetic flags of its own; sums and unions commute.
-/
namespace Sys2Proof.Machine

/-! ### Folds that gather flags -/

/-- If the steps of two elements commute on the accumulator and each element reports its own flags, a fold that gathers flags gives
the same for every order of its list. -/
theorem foldFlags_perm {α β : Type} {f : α → β → α × BitVec 8} {fl : β → BitVec 8}
    (hcomm : ∀ a b c, (f (f a b).1 c).1 = (f (f a c).1 b).1) (hfl : ∀ a b, (f a b).2 = fl b)
    {bs cs : List β} (h : bs.Perm cs) : ∀ a, foldFlags f a bs = foldFlags f a cs := by
  induction h with
  | nil => exact fun _ => rfl
  | cons b _ ih => intro a; simp only [foldFlags, ih]
  | swap b c l => intro a; simp only [foldFlags, hfl, hcomm a b c, ← BitVec.or_assoc, BitVec.or_comm (fl b)]
  | trans _ _ ih₁ ih₂ => exact fun a => (ih₁ a).trans (ih₂ a)

/-! ### The two parts of an accumulator word -/

/-- The bits of K in an accumulator word (04 R156). -/
def accLow (a : AccWord) : BitVec 187 := a.extractLsb' 0 187

/-- The five flags of an accumulator word (04 Table 04.10). -/
def accHigh (a : AccWord) : BitVec 5 := a.extractLsb' 187 5

theorem accWord_ext {a b : AccWord} (hlow : accLow a = accLow b) (hhigh : accHigh a = accHigh b) : a = b := by
  have join (c : AccWord) : accHigh c ++ accLow c = c :=
    (BitVec.extractLsb'_append_extractLsb'_eq_extractLsb' rfl).trans BitVec.extractLsb'_eq_self
  rw [← join a, ← join b, hlow, hhigh]

@[simp] theorem ofInt_accK (a : AccWord) : BitVec.ofInt 187 (accK a) = accLow a := BitVec.ofInt_toInt

@[simp] theorem accLow_or (a b : AccWord) : accLow (a ||| b) = accLow a ||| accLow b := BitVec.extractLsb'_or

@[simp] theorem accHigh_or (a b : AccWord) : accHigh (a ||| b) = accHigh a ||| accHigh b := BitVec.extractLsb'_or

@[simp] theorem accLow_accSetK (a : AccWord) (k : Int) : accLow (accSetK a k) = BitVec.ofInt 187 k := by
  have hmask : accLow (a &&& (0x1F#192 <<< 187)) = accLow a &&& 0#187 := BitVec.extractLsb'_and
  have hk : accLow ((BitVec.ofInt 187 k).zeroExtend 192) = BitVec.ofInt 187 k := by
    ext i hi
    simp [accLow, hi, show i < 192 by omega]
  rw [accSetK, accLow_or, hmask, hk, BitVec.and_zero, BitVec.zero_or]

@[simp] theorem accHigh_accSetK (a : AccWord) (k : Int) : accHigh (accSetK a k) = accHigh a := by
  have hmask : accHigh (a &&& (0x1F#192 <<< 187)) = accHigh a &&& BitVec.allOnes 5 := BitVec.extractLsb'_and
  have hk : accHigh ((BitVec.ofInt 187 k).zeroExtend 192) = 0#5 := by
    ext i hi
    simp [accHigh]
  rw [accSetK, accHigh_or, hmask, hk, BitVec.and_allOnes, BitVec.or_zero]

theorem accLow_accFlag {i : Nat} (hi : 187 ≤ i) : accLow (accFlag i) = 0 := by
  ext j hj
  simp [accLow, accFlag, show j < i by omega]

@[simp] theorem accLow_accNan : accLow accNan = 0 := accLow_accFlag (by decide)

@[simp] theorem accLow_accInf (neg : Bool) : accLow (accInf neg) = 0 := by
  cases neg
  · exact accLow_accFlag (i := 189) (by decide)
  · exact accLow_accFlag (i := 188) (by decide)

@[simp] theorem accLow_accRange : accLow accRange = 0 := accLow_accFlag (by decide)

/-! ### What one product does -/

/-- A product adds a fixed amount to K, raises fixed word flags and reports fixed arithmetic flags, whatever the word holds (R157). -/
theorem accExact_effect (ea : Int) (x y : FVal) : ∃ (k : BitVec 187) (m : BitVec 5) (fl : BitVec 8),
    (∀ a, accLow (accExact ea a x y).1 = accLow a + k) ∧ (∀ a, accHigh (accExact ea a x y).1 = accHigh a ||| m)
      ∧ ∀ a, (accExact ea a x y).2 = fl := by
  rcases hmul : x.mul y with ⟨p, zi⟩
  cases p with
  | nan sig =>
    refine ⟨0, accHigh accNan, flagIf zi flInvalid ||| sigFlag x y, ?_, ?_, ?_⟩ <;> intro a <;>
      simp [accExact, hmul]
  | inf neg =>
    refine ⟨0, accHigh (accInf neg), 0, ?_, ?_, ?_⟩ <;> intro a <;>
      simp [accExact, hmul]
  | fin neg m e =>
    by_cases hzero : m = 0
    · refine ⟨0, 0, 0, ?_, ?_, ?_⟩ <;> intro a <;>
        simp [accExact, hmul, hzero]
    · by_cases hrange : 150 + ea ≤ (Nat.log2 m : Int) + e
      · refine ⟨0, accHigh accRange, flAccRange, ?_, ?_, ?_⟩ <;> intro a <;>
          simp [accExact, hmul, hzero, hrange]
      · rcases hround : roundAt .rtz 0#32 neg m e ea with ⟨q, inx⟩
        refine ⟨BitVec.ofInt 187 (if neg then -(q : Int) else q), 0, flagIf inx flAccInexact, ?_, ?_, ?_⟩ <;> intro a <;>
          simp [accExact, hmul, hzero, hrange, hround, BitVec.ofInt_add]

/-- Two products leave the same word in either order. -/
theorem accExact_comm (ea : Int) (a : AccWord) (p q : FVal × FVal) :
    (accExact ea (accExact ea a p.1 p.2).1 q.1 q.2).1 = (accExact ea (accExact ea a q.1 q.2).1 p.1 p.2).1 := by
  obtain ⟨k, m, _, lowP, highP, _⟩ := accExact_effect ea p.1 p.2
  obtain ⟨l, n, _, lowQ, highQ, _⟩ := accExact_effect ea q.1 q.2
  apply accWord_ext
  · rw [lowQ, lowP, lowP, lowQ, BitVec.add_assoc, BitVec.add_comm k, BitVec.add_assoc]
  · rw [highQ, highP, highP, highQ, BitVec.or_assoc, BitVec.or_comm m, BitVec.or_assoc]

/-- The arithmetic flags of a product do not depend on the word that it is added to. -/
theorem accExact_flags (ea : Int) (a b : AccWord) (x y : FVal) : (accExact ea a x y).2 = (accExact ea b x y).2 := by
  obtain ⟨_, _, _, _, _, flags⟩ := accExact_effect ea x y
  rw [flags a, flags b]

/-- Settles O20: the products of a row commute on the word and each reports its own flags, so every order gives the same fold. -/
theorem exactAccumulationIsOrderFree : Obligations.ExactAccumulationIsOrderFree := by
  unfold Obligations.ExactAccumulationIsOrderFree
  intro ea a ps qs hperm
  exact foldFlags_perm (fl := fun p => (accExact ea.toInt 0 p.1 p.2).2) (accExact_comm ea.toInt)
    (fun a p => accExact_flags ea.toInt a 0 p.1 p.2) hperm a

end Sys2Proof.Machine

/-! # The completion of an operation in flight (05 R184, R186, R228; 03 R121)

The operation leaves the list of the operations in flight and its results are written; a result of one register is an update of its
gallery alone. Completing takes time only in the as-A0 mode, where it waits for the operation's budget.
-/
namespace Sys2Proof.Machine

/-! ### Registers read after a write -/

theorem Gallery.vr_setV_self (g : Gallery) (r : Nat) (c : VCell) : (g.setV r c).vr r = c := SMap.get_set_self ..

theorem Gallery.vr_setV_ne (g : Gallery) {r q : Nat} (c : VCell) (h : q ≠ r) : (g.setV r c).vr q = g.vr q :=
  (SMap.get_set ..).trans (if_neg h)

/-- A write to X0 is discarded, and every write to X leaves the other registers of the gallery. -/
theorem Gallery.setX_eq (g : Gallery) (r : Nat) (c : XCell) :
    g.setX r c = { g with x := if r = 0 then g.x else SMap.set {} g.x r c } := by
  unfold Gallery.setX
  split <;> rfl

/-- A write to P0 is discarded, and every write to P leaves the other registers of the gallery. -/
theorem Gallery.setP_eq (g : Gallery) (r : Nat) (c : PCell) :
    g.setP r c = { g with p := if r = 0 then g.p else SMap.set {} g.p r c } := by
  unfold Gallery.setP
  split <;> rfl

@[simp] theorem Gallery.xr_zero (g : Gallery) : g.xr 0 = {} := rfl

@[simp] theorem Gallery.pr_zero (g : Gallery) : g.pr 0 = { bits := BitVec.allOnes 64 } := rfl

theorem Gallery.xr_setX_self (g : Gallery) (r : BitVec 4) (c : XCell) :
    (g.setX r.toNat c).xr r.toNat = if r = 0 then {} else c := by
  by_cases hr : r = 0
  · simp [hr]
  · have hnat : r.toNat ≠ 0 := fun h => hr (BitVec.eq_of_toNat_eq h)
    rw [if_neg hr]
    simp [Gallery.setX_eq, Gallery.xr, hnat]

theorem Gallery.xr_setX_ne (g : Gallery) {r q : Nat} (c : XCell) (h : q ≠ r) : (g.setX r c).xr q = g.xr q := by
  by_cases hr : r = 0
  · simp [Gallery.setX, hr]
  · simp [Gallery.setX_eq, Gallery.xr, hr, SMap.get_set, h]

theorem Gallery.pr_setP_self (g : Gallery) (r : BitVec 3) (c : PCell) :
    (g.setP r.toNat c).pr r.toNat = if r = 0 then { bits := BitVec.allOnes 64 } else c := by
  by_cases hr : r = 0
  · simp [hr]
  · have hnat : r.toNat ≠ 0 := fun h => hr (BitVec.eq_of_toNat_eq h)
    rw [if_neg hr]
    simp [Gallery.setP_eq, Gallery.pr, hnat]

theorem Gallery.pr_setP_ne (g : Gallery) {r q : Nat} (c : PCell) (h : q ≠ r) : (g.setP r c).pr q = g.pr q := by
  by_cases hr : r = 0
  · simp [Gallery.setP, hr]
  · simp [Gallery.setP_eq, Gallery.pr, hr, SMap.get_set, h]

/-! ### One result written -/

variable (s : State)

theorem State.applyWrite_v (gi : Nat) (r : BitVec 6) (c : VCell) : s.applyWrite gi (.v r c) = s.updGal gi (fun g =>
    (g.setV r.toNat (if (s.gal gi).cond = .suspect then { c with poison := BitVec.allOnes 64 } else c)).doneReg
      (.v r.toNat) s.now) := by
  by_cases h : (s.gal gi).cond = .suspect <;> simp [State.applyWrite, State.suspect, RegWrite.poisoned, h]

theorem State.applyWrite_x (gi : Nat) (r : BitVec 4) (c : XCell) : s.applyWrite gi (.x r c) = s.updGal gi (fun g =>
    (g.setX r.toNat (if (s.gal gi).cond = .suspect then { c with poison := true } else c)).doneReg (.x r.toNat) s.now) := by
  by_cases h : (s.gal gi).cond = .suspect <;> simp [State.applyWrite, State.suspect, RegWrite.poisoned, h]

theorem State.applyWrite_p (gi : Nat) (r : BitVec 3) (c : PCell) : s.applyWrite gi (.p r c) = s.updGal gi (fun g =>
    (g.setP r.toNat (if (s.gal gi).cond = .suspect then { c with poison := true } else c)).doneReg (.p r.toNat) s.now) := by
  by_cases h : (s.gal gi).cond = .suspect <;> simp [State.applyWrite, State.suspect, RegWrite.poisoned, h]

/-! ### Results are written in no time -/

theorem State.storeWrite_clk (gi off : Nat) (bs : List Byte) (p : Bool) : (s.storeWrite gi off bs p).clk = s.clk := by
  have h := congrArg State.clk (s.storeWrite_sans gi off bs p)
  exact h

theorem State.drainRx_clk (gi : Nat) : (s.drainRx gi).clk = s.clk := by
  unfold State.drainRx
  split
  · rfl
  · dsimp only
    split
    · rfl
    · rw [State.storeWrite_clk]
      rfl

theorem State.applyWrite_clk (gi : Nat) (w : RegWrite) : (s.applyWrite gi w).clk = s.clk := by
  unfold State.applyWrite
  split
  case h_7 => exact s.drainRx_clk _
  all_goals rfl

theorem State.applyWrites_clk (gi : Nat) (ws : List RegWrite) : (s.applyWrites gi ws).clk = s.clk :=
  s.each_keeps State.clk _ _ (fun t w => t.applyWrite_clk gi w)

/-! ### The completion -/

/-- The state in which operation `k` has left the operations in flight of gallery `gi`. -/
def State.leaveFlight (s : State) (gi k : Nat) : State :=
  s.updGal gi (fun g => { g with inflight := g.inflight.eraseIdx k })

theorem State.leaveFlight_cond (gi k : Nat) : ((s.leaveFlight gi k).gal gi).cond = (s.gal gi).cond := by
  rw [State.leaveFlight, State.updGal_gal_self]

theorem State.waitUntil_zero : s.waitUntil 0 = s := by simp [State.waitUntil]

theorem galIdx_div (ph : Nat) (g : Fin 16) : galIdx ph g.val / 16 = ph := by
  unfold galIdx
  omega

/-- An operation completes from its budget in the as-A0 mode, and at any tread outside it (05 R228). -/
theorem State.doneFrom_galIdx (ph : Nat) (g : Fin 16) (o : InFlight) :
    s.doneFrom (galIdx ph g.val) o = if (s.hall ph).reg.asA0 then o.due else 0 := by
  unfold State.doneFrom State.floorOf
  rw [galIdx_div]

section Completion

variable {s} {ph : Fin 64} {g : Fin 16} {k : Nat}

theorem exec_operationComplete {o : InFlight} (hk : (s.gal (galIdx ph.val g.val)).inflight[k]? = some o) :
    exec (.operationComplete ph g k) s =
      .next (((s.waitUntil (s.doneFrom (galIdx ph.val g.val) o)).leaveFlight (galIdx ph.val g.val) k).applyWrites
        (galIdx ph.val g.val) o.writes) := by
  change Host.Outcome.next (s.completeOp ph.val g.val k) = _
  simp only [State.completeOp, hk]
  rfl

/-- Outside the as-A0 mode, where the one result of an operation updates its gallery, the completion changes that gallery alone: by
the result, once the operation has left the operations in flight. -/
theorem exec_operationComplete_single {due : Nat} {w : RegWrite} {f : Gallery → Gallery}
    (hmode : (s.hall ph.val).reg.asA0 = false)
    (hk : (s.gal (galIdx ph.val g.val)).inflight[k]? = some ⟨due, [w]⟩)
    (hw : (s.leaveFlight (galIdx ph.val g.val) k).applyWrite (galIdx ph.val g.val) w =
      (s.leaveFlight (galIdx ph.val g.val) k).updGal (galIdx ph.val g.val) f) :
    ∃ t, exec (.operationComplete ph g k) s = .next t ∧ { t with gals := s.gals } = s
      ∧ (∀ gj, gj ≠ galIdx ph.val g.val → t.gal gj = s.gal gj)
      ∧ t.gal (galIdx ph.val g.val) = f { s.gal (galIdx ph.val g.val) with
          inflight := (s.gal (galIdx ph.val g.val)).inflight.eraseIdx k } := by
  refine ⟨(s.leaveFlight (galIdx ph.val g.val) k).updGal (galIdx ph.val g.val) f, ?_, rfl, fun gj hne => ?_, ?_⟩
  · have hnow : s.doneFrom (galIdx ph.val g.val) ⟨due, [w]⟩ = 0 := by simp [State.doneFrom_galIdx, hmode]
    rw [exec_operationComplete hk, hnow, State.waitUntil_zero, ← hw]
    rfl
  · rw [State.updGal_gal, if_neg hne, State.leaveFlight, State.updGal_gal, if_neg hne]
  · rw [State.updGal_gal_self, State.leaveFlight, State.updGal_gal_self]

/-- In the as-A0 mode an operation completes no earlier than its budget (05 R228). -/
theorem exec_operationComplete_asA0 {o : InFlight} (hk : (s.gal (galIdx ph.val g.val)).inflight[k]? = some o)
    (hmode : (s.hall ph.val).reg.asA0 = true) (hrun : s.clk.running = true) (hdue : o.due < 2 ^ 64) :
    ∃ t, exec (.operationComplete ph g k) s = .next t ∧ o.due ≤ t.now := by
  refine ⟨_, exec_operationComplete hk, ?_⟩
  have hfrom : s.doneFrom (galIdx ph.val g.val) o = o.due := by simp [State.doneFrom_galIdx, hmode]
  calc o.due ≤ max s.now o.due := Nat.le_max_right ..
    _ = (s.waitUntil o.due).now := (s.waitUntil_now o.due (.inr ⟨hrun, hdue⟩)).symm
    _ = _ := by
      rw [hfrom, State.now, State.now, State.applyWrites_clk]
      rfl

end Completion

/-- Settles O8: outside the as-A0 mode each kind of result is one update of the gallery, read back by the register rules; the as-A0
mode waits for the budget, and writing the results takes no time. -/
theorem resultsAreWrittenAtCompletion : Obligations.ResultsAreWrittenAtCompletion := by
  unfold Obligations.ResultsAreWrittenAtCompletion
  refine ⟨?_, fun ph g k s o hk hmode hrun hdue => exec_operationComplete_asA0 hk hmode hrun hdue,
    fun x => ⟨x.xr_zero, x.pr_zero⟩⟩
  intro ph g k s due gi hmode
  refine ⟨fun r c hk => ?_, fun r c hk => ?_, fun r c hk => ?_⟩
  · obtain ⟨t, hexec, hframe, hothers, hgal⟩ := exec_operationComplete_single hmode hk (State.applyWrite_v ..)
    rw [State.leaveFlight_cond] at hgal
    refine ⟨t, hexec, hframe, hothers, ?_, fun q hq => ?_, ?_, ?_⟩ <;> rw [hgal]
    · exact Gallery.vr_setV_self ..
    · exact Gallery.vr_setV_ne _ _ hq
    all_goals rfl
  · obtain ⟨t, hexec, hframe, hothers, hgal⟩ := exec_operationComplete_single hmode hk (State.applyWrite_x ..)
    rw [State.leaveFlight_cond] at hgal
    refine ⟨t, hexec, hframe, hothers, ?_, fun q hq => ?_, ?_, ?_⟩ <;> rw [hgal]
    · exact Gallery.xr_setX_self ..
    · exact Gallery.xr_setX_ne _ _ hq
    all_goals
      rw [Gallery.setX_eq]
      rfl
  · obtain ⟨t, hexec, hframe, hothers, hgal⟩ := exec_operationComplete_single hmode hk (State.applyWrite_p ..)
    rw [State.leaveFlight_cond] at hgal
    refine ⟨t, hexec, hframe, hothers, ?_, fun q hq => ?_, ?_, ?_⟩ <;> rw [hgal]
    · exact Gallery.pr_setP_self ..
    · exact Gallery.pr_setP_ne _ _ hq
    all_goals
      rw [Gallery.setP_eq]
      rfl

end Sys2Proof.Machine

/-! # Sleep and the staircase wake (13 R522, R523; 06 R266)

A request word with one bit asks one hall. A wake group is a fold over distinct halls, each of which begins its wake in its own record
and in its own request bit. The scrub of a hall is a fold over its galleries: a scrub makes its gallery's store clean and dirties no
other, so after the fold every store of the hall is clean. That a group clears its request bits and counts its halls when it starts is
the model's choice (log 63).
-/
namespace Sys2Proof.Machine

/-! ### Requests (R522) -/

/-- A request word with one bit set asks one hall. -/
theorem askedHalls_bit (hi : Bool) (i : Fin 32) :
    askedHalls hi (BitVec.ofNat 32 (2 ^ i.val)) = [if hi then 32 + i.val else i.val] := by
  have hbit : ∀ j ∈ List.range 32, (BitVec.ofNat 32 (2 ^ i.val)).getLsbD j = decide (j = i.val) := by
    intro j hj
    rw [BitVec.getLsbD_ofNat, Nat.testBit_two_pow]
    simp [List.mem_range.1 hj, eq_comm]
  have hone : (List.range 32).filter (fun j => decide (j = i.val)) = [i.val] := by
    rw [List.filter_eq, List.count_range, if_pos i.isLt, List.replicate_one]
  rw [askedHalls, List.filter_congr hbit, hone, List.map_singleton]

section

variable (s : State)

theorem exec_wakeRequest_bit (hi : Bool) (i : Fin 32) : exec (.wakeRequest hi (BitVec.ofNat 32 (2 ^ i.val))) s =
    .next (s.askWake (if hi then 32 + i.val else i.val)) := by
  change Host.Outcome.next (s.each (askedHalls hi _) State.askWake) = _
  rw [askedHalls_bit]
  rfl

theorem exec_sleepRequest_bit (hi : Bool) (i : Fin 32) : exec (.sleepRequest hi (BitVec.ofNat 32 (2 ^ i.val))) s =
    .next (s.askSleep (if hi then 32 + i.val else i.val)) := by
  change Host.Outcome.next (s.each (askedHalls hi _) State.askSleep) = _
  rw [askedHalls_bit]
  rfl

section Requests

variable {s} {ph : Nat}

theorem State.askWake_of_asleep (hst : (s.hall ph).st = .asleep) (hsleep : s.pwr.sleep.getLsbD ph = false) :
    s.askWake ph = { s with pwr := { s.pwr with wake := s.pwr.wake ||| phBit ph } } := by
  simp [State.askWake, hst, hsleep]

/-- A wake request takes back the sleep that its hall waits for. -/
theorem State.askWake_of_sleep (habs : (s.hall ph).st ≠ .absent) (hwd : (s.hall ph).st ≠ .withdrawn)
    (hsleep : s.pwr.sleep.getLsbD ph = true) :
    s.askWake ph = { s with pwr := { s.pwr with sleep := s.pwr.sleep &&& ~~~phBit ph } } := by
  simp [State.askWake, habs, hwd, hsleep]

theorem State.askWake_of_gone (hst : (s.hall ph).st = .absent ∨ (s.hall ph).st = .withdrawn) : s.askWake ph = s := by
  simp [State.askWake, hst]

theorem State.askSleep_of_awake (hst : (s.hall ph).st = .idle ∨ (s.hall ph).st = .running ∨ (s.hall ph).st = .waking
      ∨ (s.hall ph).st = .testing) (hwake : s.pwr.wake.getLsbD ph = false) :
    s.askSleep ph = { s with pwr := { s.pwr with sleep := s.pwr.sleep ||| phBit ph } } := by
  rcases hst with h | h | h | h <;> simp [State.askSleep, h, hwake]

/-- A sleep request takes back the wake that its hall has not begun. -/
theorem State.askSleep_of_wake (hst : (s.hall ph).st = .asleep) (hwake : s.pwr.wake.getLsbD ph = true) :
    s.askSleep ph = { s with pwr := { s.pwr with wake := s.pwr.wake &&& ~~~phBit ph } } := by
  simp [State.askSleep, hst, hwake]

theorem State.askSleep_of_gone (hst : (s.hall ph).st = .absent ∨ (s.hall ph).st = .withdrawn) : s.askSleep ph = s := by
  simp [State.askSleep, hst]

end Requests

/-! ### Halls that begin to wake (R523) -/

theorem toNat_satAdd {w : Nat} (x : BitVec w) (n : Nat) : (satAdd x n).toNat = min (x.toNat + n) (2 ^ w - 1) := by
  have hpos : 0 < 2 ^ w := Nat.two_pow_pos w
  rw [satAdd, BitVec.toNat_ofNat, Nat.mod_eq_of_lt (by omega)]

theorem getLsbD_clear_phBit (v : BitVec 64) (ph j : Nat) :
    (v &&& ~~~phBit ph).getLsbD j = (v.getLsbD j && !decide (j = ph)) := by
  by_cases hj : j < 64
  · rw [BitVec.getLsbD_and, BitVec.getLsbD_not, phBit, BitVec.getLsbD_ofNat, Nat.testBit_two_pow]
    simp [hj, eq_comm]
  · simp [BitVec.getLsbD_of_ge, Nat.le_of_not_lt hj]

/-- Hall `ph` as its wake begins: its regulator rises to the settled vcode of pace high, and its scrub ends 4,160 treads on. -/
def State.wakingHall (ph : Nat) : Hall :=
  { s.hall ph with
    st := .waking
    pwr := { (s.hall ph).pwr with vcode := s.settledVcode ph 0, wakeAt := some (s.now + 4160), stamp := none } }

theorem State.beginWake_hall (ph q : Nat) : (s.beginWake ph).hall q = if q = ph then s.wakingHall ph else s.hall q :=
  State.updHall_hall ..

/-- What the waking record of a hall depends on. -/
theorem State.wakingHall_congr {s t : State} {ph : Nat} (hhall : t.hall ph = s.hall ph) (hcfg : t.cfg = s.cfg)
    (hclk : t.clk = s.clk) : t.wakingHall ph = s.wakingHall ph := by
  simp only [State.wakingHall, State.settledVcode, State.now, hhall, hcfg, hclk]

/-- Halls begin to wake in no time, and within their group. -/
theorem State.each_beginWake_frame (l : List Nat) :
    (s.each l State.beginWake).clk = s.clk ∧ (s.each l State.beginWake).pwr.lastGroup = s.pwr.lastGroup :=
  ⟨s.each_keeps State.clk l _ fun _ _ => rfl, s.each_keeps (fun t => t.pwr.lastGroup) l _ fun _ _ => rfl⟩

theorem State.each_beginWake_wake (l : List Nat) (j : Nat) :
    (s.each l State.beginWake).pwr.wake.getLsbD j = (s.pwr.wake.getLsbD j && !decide (j ∈ l)) := by
  induction l generalizing s with
  | nil => simp [State.each]
  | cons ph l ih =>
    change ((s.beginWake ph).each l State.beginWake).pwr.wake.getLsbD j = _
    rw [ih]
    change ((s.pwr.wake &&& ~~~phBit ph).getLsbD j && _) = _
    rw [getLsbD_clear_phBit]
    simp [Bool.and_assoc]

theorem State.each_beginWake_wakes (l : List Nat) :
    (s.each l State.beginWake).pwr.wakes.toNat = min (s.pwr.wakes.toNat + l.length) (2 ^ 32 - 1) := by
  induction l generalizing s with
  | nil =>
    have hlt := s.pwr.wakes.isLt
    change s.pwr.wakes.toNat = min (s.pwr.wakes.toNat + 0) _
    omega
  | cons ph l ih =>
    change ((s.beginWake ph).each l State.beginWake).pwr.wakes.toNat = _
    rw [ih]
    change min ((satAdd s.pwr.wakes 1).toNat + l.length) _ = min (s.pwr.wakes.toNat + (l.length + 1)) _
    rw [toNat_satAdd]
    omega

/-- Distinct halls that begin to wake each begin as the first would: no wake sees another. -/
theorem State.each_beginWake_hall {l : List Nat} (hl : l.Nodup) (q : Nat) :
    (s.each l State.beginWake).hall q = if q ∈ l then s.wakingHall q else s.hall q := by
  induction l generalizing s with
  | nil => simp [State.each]
  | cons ph l ih =>
    obtain ⟨hph, hl⟩ := List.nodup_cons.1 hl
    change ((s.beginWake ph).each l State.beginWake).hall q = _
    rw [ih _ hl]
    by_cases hq : q = ph
    · subst hq
      simp [hph, State.beginWake_hall]
    · have hhall : (s.beginWake ph).hall q = s.hall q := by rw [State.beginWake_hall, if_neg hq]
      rw [State.wakingHall_congr hhall rfl rfl, hhall]
      simp [hq]

/-! ### The group (R523) -/

/-- The lowest four halls that wait to wake. -/
def State.wakeGroup : List Nat :=
  ((List.range 64).filter (fun ph => s.pwr.wake.getLsbD ph && (s.hall ph).st = .asleep)).take 4

/-- The TREAD from which the next group may begin. -/
def State.groupFrom : Nat := match s.pwr.lastGroup with | some t => t + 4000 | none => 0

theorem State.wakeGroup_nodup : s.wakeGroup.Nodup :=
  List.nodup_range.sublist ((List.take_sublist ..).trans List.filter_sublist)

/-- The state at the start of the next group, before its halls begin to wake. -/
def State.groupStart : State :=
  let s1 := s.waitUntil s.groupFrom
  { s1 with pwr := { s1.pwr with lastGroup := some s1.now } }

theorem State.groupStart_pwr : s.groupStart.pwr = { s.pwr with lastGroup := some s.groupStart.now } := by
  rw [← s.waitUntil_pwr s.groupFrom]
  rfl

theorem State.waitUntil_hall (t ph : Nat) : (s.waitUntil t).hall ph = s.hall ph :=
  congrArg (fun halls => SMap.get ({} : Hall) halls ph) (s.waitUntil_halls t)

theorem State.groupStart_hall (ph : Nat) : s.groupStart.hall ph = s.hall ph := s.waitUntil_hall s.groupFrom ph

theorem State.groupStart_settledVcode (ph p : Nat) : s.groupStart.settledVcode ph p = s.settledVcode ph p := by
  have hcfg : s.groupStart.cfg = s.cfg := s.waitUntil_cfg s.groupFrom
  simp only [State.settledVcode, State.groupStart_hall, hcfg]

section Group

variable {s}

theorem State.groupFrom_le_groupStart (hcomes : Claims.comes s s.groupFrom) : s.groupFrom ≤ s.groupStart.now := by
  change _ ≤ (s.waitUntil s.groupFrom).now
  rw [s.waitUntil_now _ hcomes]
  exact Nat.le_max_right ..

theorem exec_wakeGroupStart (hg : s.wakeGroup ≠ []) (hon : s.mainOn = true) (hcomes : Claims.comes s s.groupFrom) :
    exec .wakeGroupStart s = .next (s.groupStart.each s.wakeGroup State.beginWake) := by
  have hready : ¬ (s.wakeGroup.isEmpty || !s.mainOn) = true := by simp [hg, hon]
  have hnow : ¬ (s.waitUntil s.groupFrom).now < s.groupFrom := Nat.not_lt.2 (State.groupFrom_le_groupStart hcomes)
  exact (if_neg hready).trans (if_neg hnow)

end Group

/-! ### The scrub of a waking hall (06 R266) -/

/-- The store of gallery `gi` is zero with fresh check bits, and no line of it is poisoned. -/
structure State.CleanStore (s : State) (gi : Nat) : Prop where
  unpoisoned : (s.gal gi).poisoned = []
  zero : ∀ b < storeBytes, s.readByte (storeAddr gi b) = 0
  checked : ∀ u ∈ s.upsets, ∀ line word, u.site ≠ .store gi line word

theorem State.scrubStore_gal (gi j : Nat) :
    (s.scrubStore gi).gal j = if j = gi then { s.gal gi with poisoned := [] } else s.gal j :=
  State.updGal_gal ..

theorem State.scrubStore_readByte (gi a : Nat) : (s.scrubStore gi).readByte a =
    if storeAddr gi 0 ≤ a ∧ a < storeAddr gi storeBytes then 0 else s.readByte a :=
  s.readByte_zeroRange ..

theorem State.mem_scrubStore_upsets {gi : Nat} {u : Upset} (h : u ∈ (s.scrubStore gi).upsets) :
    u ∈ s.upsets ∧ ∀ line word, u.site ≠ .store gi line word := by
  obtain ⟨hmem, hsite⟩ := List.mem_filter.1 h
  refine ⟨hmem, fun line word heq => ?_⟩
  rw [heq] at hsite
  simp at hsite

theorem State.cleanStore_scrubStore (gi : Nat) : (s.scrubStore gi).CleanStore gi where
  unpoisoned := by rw [State.scrubStore_gal, if_pos rfl]
  zero b hb := by
    rw [State.scrubStore_readByte, if_pos]
    unfold storeAddr
    omega
  checked _ hu := (s.mem_scrubStore_upsets hu).2

/-- A scrub dirties no store. -/
theorem State.CleanStore.scrubStore {s : State} {gi : Nat} (h : s.CleanStore gi) (gj : Nat) : (s.scrubStore gj).CleanStore gi where
  unpoisoned := by
    rw [State.scrubStore_gal]
    split
    · rfl
    · exact h.unpoisoned
  zero b hb := by
    rw [State.scrubStore_readByte, h.zero b hb, ite_self]
  checked u hu := h.checked u (s.mem_scrubStore_upsets hu).1

theorem State.CleanStore.updHall {s : State} {gi : Nat} (h : s.CleanStore gi) (ph : Nat) (f : Hall → Hall) :
    (s.updHall ph f).CleanStore gi :=
  ⟨h.unpoisoned, h.zero, h.checked⟩

/-- What one step of a fold establishes and every step keeps, the fold establishes. -/
theorem State.each_establishes {α : Type} (P : State → Prop) {l : List α} {f : State → α → State} {a : α} (ha : a ∈ l)
    (hset : ∀ t, P (f t a)) (hkeep : ∀ t b, P t → P (f t b)) : P (s.each l f) := by
  obtain ⟨before, after, rfl⟩ := List.append_of_mem ha
  have hsplit : s.each (before ++ a :: after) f = (f (s.each before f) a).each after f := List.foldl_append ..
  rw [hsplit]
  exact State.each_inv _ P after f hkeep (hset _)

/-- The state in which every store of hall `ph` has been scrubbed. -/
def State.scrubHall (ph : Nat) : State := s.each (List.range 16) (fun s g => s.scrubStore (galIdx ph g))

theorem State.cleanStore_scrubHall (ph : Nat) {g : Nat} (hg : g < 16) : (s.scrubHall ph).CleanStore (galIdx ph g) :=
  s.each_establishes (fun t => t.CleanStore (galIdx ph g)) (List.mem_range.2 hg) (fun t => t.cleanStore_scrubStore _)
    (fun _ _ h => h.scrubStore _)

theorem State.scrubHall_halls (ph : Nat) : (s.scrubHall ph).halls = s.halls := s.each_keeps State.halls _ _ fun _ _ => rfl

theorem State.scrubHall_hall (ph q : Nat) : (s.scrubHall ph).hall q = s.hall q :=
  congrArg (fun halls => SMap.get ({} : Hall) halls q) (s.scrubHall_halls ph)

theorem State.waitUntil_stampOf (t ph : Nat) : (s.waitUntil t).stampOf ph = s.stampOf ph := by
  simp only [State.stampOf, State.waitUntil_hall, State.sl, State.waitUntil_slices]

theorem exec_hallScrubComplete {s : State} {ph : Fin 64} {t : Nat} (hat : (s.hall ph.val).pwr.wakeAt = some t)
    (hst : (s.hall ph.val).st = .waking) (hstamp : (s.hall ph.val).pwr.stamp = none) (hcomes : Claims.comes s t) :
    exec (.hallScrubComplete ph) s = .next (((s.waitUntil t).scrubHall ph.val).updHall ph.val
      (fun h => { h with pwr := { h.pwr with stamp := some (s.stampOf ph.val), wakeAt := none } })) := by
  have hnow : ¬ (s.waitUntil t).now < t := by
    rw [s.waitUntil_now _ hcomes]
    omega
  change execHallScrubComplete ph s = _
  simp only [execHallScrubComplete, hat, hst, hstamp, hnow, State.waitUntil_stampOf]
  rfl

end

/-- Settles O52: a request word with one bit asks one hall; the distinct halls of a group begin to wake each for itself, once the group
may begin; and the scrubs of a hall's galleries leave every store of it clean. -/
theorem sleepAndWake : Obligations.SleepAndWake := by
  unfold Obligations.SleepAndWake
  refine fun s => ⟨?requests, ?group, ?scrub⟩
  case requests =>
    rintro hi _ i rfl
    rw [exec_wakeRequest_bit, exec_sleepRequest_bit]
    exact ⟨fun hst hsleep => congrArg _ (State.askWake_of_asleep hst hsleep),
      fun habs hwd hsleep => congrArg _ (State.askWake_of_sleep habs hwd hsleep),
      fun hst hwake => congrArg _ (State.askSleep_of_awake hst hwake),
      fun hst hwake => congrArg _ (State.askSleep_of_wake hst hwake),
      fun hst => ⟨congrArg _ (State.askWake_of_gone hst), congrArg _ (State.askSleep_of_gone hst)⟩⟩
  case group =>
    intro g t0 hg hon hcomes
    obtain ⟨hclk, hlast⟩ := s.groupStart.each_beginWake_frame s.wakeGroup
    have hhall := s.groupStart.each_beginWake_hall s.wakeGroup_nodup
    have hwake := s.groupStart.each_beginWake_wake s.wakeGroup
    have hwakes := s.groupStart.each_beginWake_wakes s.wakeGroup
    have hnow : (s.groupStart.each s.wakeGroup State.beginWake).now = s.groupStart.now := congrArg (·.tread.toNat) hclk
    rw [State.groupStart_pwr] at hlast hwakes
    simp only [State.groupStart_pwr] at hwake
    refine ⟨_, exec_wakeGroupStart hg hon hcomes, ?_, ?_, fun ph hph => ?_, fun ph hph => ?_, hwakes⟩
    · rw [hnow]
      exact State.groupFrom_le_groupStart hcomes
    · rw [hlast, hnow]
    · change ph ∈ s.wakeGroup at hph
      rw [hhall, if_pos hph, hwake, hnow]
      exact ⟨rfl, s.groupStart_settledVcode ph 0, rfl, by simp [hph]⟩
    · change ph ∉ s.wakeGroup at hph
      rw [hhall, if_neg hph, hwake]
      exact ⟨s.groupStart_hall ph, by simp [hph]⟩
  case scrub =>
    intro ph t0 hat hst hstamp hcomes
    have hexec := exec_hallScrubComplete hat hst hstamp hcomes
    refine ⟨_, hexec, ?_, ?_, ?_, fun g hg => ?_⟩
    · rw [State.updHall_hall_self]
    · rw [State.updHall_hall_self]
    · rw [State.updHall_hall_self, State.scrubHall_hall, State.waitUntil_hall, hst]
    · obtain ⟨hpoison, hzero, hcheck⟩ := ((s.waitUntil t0).cleanStore_scrubHall ph.val hg).updHall ph.val _
      exact ⟨hpoison, hzero, hcheck⟩

end Sys2Proof.Machine

/-! # What a completion leaves (11 R453 to R455, Table 11.7)

A descriptor completes with one entry: 128 bytes of the ring of its queue, one entry more written there, one descriptor fewer under way,
and at most its alert bit and its vector. What the entry says stands at fixed offsets in it.
-/
namespace Sys2Proof.Machine

/-! ### Bytes of a number -/

@[simp] theorem length_leBytes (n v : Nat) : (leBytes n v).length = n := by
  induction n generalizing v with
  | zero => rfl
  | succ n ih => simp [leBytes, ih]

@[simp] theorem length_bvBytes {w : Nat} (n : Nat) (v : BitVec w) : (bvBytes n v).length = n := length_leBytes ..

theorem getElem?_leBytes {n i : Nat} (hi : i < n) (v : Nat) : (leBytes n v)[i]? = some (BitVec.ofNat 8 (v / 2 ^ (8 * i))) := by
  induction n generalizing v i with
  | zero => omega
  | succ n ih =>
    cases i with
    | zero => simp [leBytes]
    | succ i =>
      have hpow : 2 ^ (8 * (i + 1)) = 256 * 2 ^ (8 * i) := by rw [Nat.mul_succ, Nat.pow_add, Nat.mul_comm]
      rw [leBytes, List.getElem?_cons_succ, ih (by omega), Nat.div_div_eq_div_mul, hpow]

theorem getElem?_bvBytes {w n i : Nat} (hi : i < n) (v : BitVec w) : (bvBytes n v)[i]? = some (v.extractLsb' (8 * i) 8) := by
  rw [bvBytes, getElem?_leBytes hi, BitVec.extractLsb', Nat.shiftRight_eq_div_pow]

theorem getD_of_lt {bs : List Byte} {i : Nat} (hi : i < bs.length) (d : Byte) : bs.getD i d = bs[i] := by
  rw [List.getD_eq_getElem?_getD, List.getElem?_eq_getElem hi, Option.getD_some]

/-! ### The bytes of an entry (Table 11.7) -/

theorem getElem?_of_eq_append {xs ys zs bs : List Byte} {i j : Nat} (h : bs = xs ++ ys ++ zs) (hi : i < ys.length)
    (hj : j = xs.length + i) : bs[j]? = ys[i]? := by
  rw [h, hj, List.append_assoc, List.getElem?_append_right (Nat.le_add_right ..), Nat.add_sub_cancel_left,
    List.getElem?_append_left hi]

variable (s : State)

/-- Where tag, status, opcode and detail stand in an entry. -/
theorem State.entryBytes_layout (n : Nat) (e : Entry) : ∃ head mid rest : List Byte, head.length = 64 ∧ mid.length = 9 ∧ rest.length = 40
    ∧ s.entryBytes n e = head ++ bvBytes 4 e.tag ++ bvBytes 2 e.status ++ [e.opcode] ++ mid ++ bvBytes 8 e.detail ++ rest := by
  obtain ⟨rec_, fl, phase, h⟩ : ∃ (rec_ : BitVec 512) (fl phase : Nat), s.entryBytes n e =
      bvBytes 64 rec_ ++ bvBytes 4 e.tag ++ bvBytes 2 e.status ++ [e.opcode] ++ leBytes 1 fl
        ++ bvBytes 8 (e.crc.getD 0) ++ bvBytes 8 e.detail ++ [e.chan, BitVec.ofNat 8 n, e.kind, 0] ++ bvBytes 4 e.ord
        ++ (if n = 0 then bvBytes 8 s.clk.tread else zeros 8) ++ zeros 16 ++ bvBytes 2 (s.queue n).sqHead ++ zeros 2
        ++ leBytes 4 phase := ⟨_, _, _, rfl⟩
  refine ⟨bvBytes 64 rec_, leBytes 1 fl ++ bvBytes 8 (e.crc.getD 0), [e.chan, BitVec.ofNat 8 n, e.kind, 0] ++ bvBytes 4 e.ord
    ++ (if n = 0 then bvBytes 8 s.clk.tread else zeros 8) ++ zeros 16 ++ bvBytes 2 (s.queue n).sqHead ++ zeros 2 ++ leBytes 4 phase,
    length_bvBytes .., by simp, ?_, ?_⟩
  · split <;> simp [zeros]
  · simp only [h, List.append_assoc]

theorem State.length_entryBytes (n : Nat) (e : Entry) : (s.entryBytes n e).length = 128 := by
  obtain ⟨head, mid, rest, hhead, hmid, hrest, heq⟩ := s.entryBytes_layout n e
  simp [heq, hhead, hmid, hrest]

theorem State.entryBytes_fields (n : Nat) (e : Entry) :
    (∀ i < 4, (s.entryBytes n e)[64 + i]? = some (e.tag.extractLsb' (8 * i) 8))
    ∧ (∀ i < 2, (s.entryBytes n e)[68 + i]? = some (e.status.extractLsb' (8 * i) 8))
    ∧ (s.entryBytes n e)[70]? = some e.opcode
    ∧ ∀ i < 8, (s.entryBytes n e)[80 + i]? = some (e.detail.extractLsb' (8 * i) 8) := by
  obtain ⟨head, mid, rest, hhead, hmid, hrest, heq⟩ := s.entryBytes_layout n e
  refine ⟨fun i hi => ?_, fun i hi => ?_, ?_, fun i hi => ?_⟩
  · rw [← getElem?_bvBytes hi]
    exact getElem?_of_eq_append (xs := head) (by rw [heq]; simp only [List.append_assoc]; rfl) (by rwa [length_bvBytes])
      (by rw [hhead])
  · rw [← getElem?_bvBytes hi]
    exact getElem?_of_eq_append (xs := head ++ bvBytes 4 e.tag) (by rw [heq]; simp only [List.append_assoc]; rfl)
      (by rwa [length_bvBytes]) (by simp [hhead])
  · exact getElem?_of_eq_append (xs := head ++ bvBytes 4 e.tag ++ bvBytes 2 e.status) (ys := [e.opcode]) (i := 0)
      (by rw [heq]; simp only [List.append_assoc]; rfl) (by simp) (by simp [hhead])
  · rw [← getElem?_bvBytes hi]
    exact getElem?_of_eq_append heq (by rwa [length_bvBytes]) (by simp [hhead, hmid])

/-! ### A completion -/

theorem State.hostWrite_host (a : Nat) (bs : List Byte) (i : Nat) :
    memGet (s.hostWrite a bs).hostMem (s.hostWrite a bs).hostUndef i =
      if h : a ≤ i ∧ i < a + bs.length then bs[i - a]'(by omega) else memGet s.hostMem s.hostUndef i :=
  memGet_put ..

/-- The descriptor of header `h` completes with entry `e`: what every completion of a descriptor does. -/
def State.close (s : State) (h : DescHdr) (e : Entry) : State :=
  (s.complete h.queue.val e (h.flags.getLsbD 0)).updQueue h.queue.val (fun q => { q with doing := q.doing - 1 })

theorem State.finish_eq_close (h : DescHdr) (op : Byte) (st : BitVec 16) (d : Word64) (o : Word) :
    s.finish h op st d o = s.close h { tag := h.tag, status := st, opcode := op, detail := d, ord := o } := rfl

theorem State.finishXfer_eq_close (h : DescHdr) (op : Byte) (d : DmaDesc) (st : BitVec 16) (x : Word64) (c : Option Word64) :
    s.finishXfer h op d st x c =
      s.close h { tag := h.tag, status := st, opcode := op, crc := c, detail := x, chan := d.chan, ord := xferOrd d } := rfl

/-- A completion changes host memory, the queues, the alert bits and the vectors alone. -/
theorem State.close_sans (h : DescHdr) (e : Entry) : (s.close h e).sansEntry = s.sansEntry :=
  (State.updQueue_sans ..).trans (s.complete_sans ..)

@[simp] theorem State.close_mem (h : DescHdr) (e : Entry) : (s.close h e).mem = s.mem := by
  have := congrArg State.mem (s.close_sans h e); exact this
@[simp] theorem State.close_undef (h : DescHdr) (e : Entry) : (s.close h e).undef = s.undef := by
  have := congrArg State.undef (s.close_sans h e); exact this
@[simp] theorem State.close_unseen (h : DescHdr) (e : Entry) : (s.close h e).unseen = s.unseen := by
  have := congrArg State.unseen (s.close_sans h e); exact this
@[simp] theorem State.close_halls (h : DescHdr) (e : Entry) : (s.close h e).halls = s.halls := by
  have := congrArg State.halls (s.close_sans h e); exact this
@[simp] theorem State.close_links (h : DescHdr) (e : Entry) : (s.close h e).links = s.links := by
  have := congrArg State.links (s.close_sans h e); exact this
@[simp] theorem State.close_ctxs (h : DescHdr) (e : Entry) : (s.close h e).ctxs = s.ctxs := by
  have := congrArg State.ctxs (s.close_sans h e); exact this
@[simp] theorem State.close_flights (h : DescHdr) (e : Entry) : (s.close h e).flights = s.flights := by
  have := congrArg State.flights (s.close_sans h e); exact this
@[simp] theorem State.close_slices (h : DescHdr) (e : Entry) : (s.close h e).slices = s.slices := by
  have := congrArg State.slices (s.close_sans h e); exact this
@[simp] theorem State.close_stair (h : DescHdr) (e : Entry) : (s.close h e).stair = s.stair := by
  have := congrArg State.stair (s.close_sans h e); exact this
@[simp] theorem State.close_chans (h : DescHdr) (e : Entry) : (s.close h e).chans = s.chans := by
  have := congrArg State.chans (s.close_sans h e); exact this
@[simp] theorem State.close_flt (h : DescHdr) (e : Entry) : (s.close h e).flt = s.flt := by
  have := congrArg State.flt (s.close_sans h e); exact this

theorem State.queue_congr {s u : State} (hqueues : u.queues = s.queues) (n : Nat) : u.queue n = s.queue n := by
  rw [State.queue, hqueues, ← State.queue]

theorem State.entered_queue_of (n : Nat) (bs : List Byte) (j : Nat) : (s.entered n bs).queue j =
    if j = n then { s.queue n with cqW := (s.queue n).cqW + 1 } else s.queue j :=
  State.updQueue_queue (s.hostWrite (s.entryAddr n) bs) ..

theorem State.entered_host (n : Nat) (e : Entry) (i : Nat) :
    memGet (s.entered n (s.entryBytes n e)).hostMem (s.entered n (s.entryBytes n e)).hostUndef i =
      if s.entryAddr n ≤ i ∧ i < s.entryAddr n + 128 then (s.entryBytes n e).getD (i - s.entryAddr n) 0
      else memGet s.hostMem s.hostUndef i := by
  rw [State.entered, State.updQueue_hostMem, State.updQueue_hostUndef, State.hostWrite_host]
  simp only [s.length_entryBytes]
  split
  · exact (getD_of_lt ..).symm
  · rfl

/-- What an entry leaves on a queue that is neither in error nor idle. -/
theorem State.complete_open {n : Nat} (herr : (s.queue n).err = false) (hidle : (s.queue n).idle = false) (e : Entry) (irq : Bool) :
    (s.complete n e irq).hostMem = (s.entered n (s.entryBytes n e)).hostMem
      ∧ (s.complete n e irq).hostUndef = (s.entered n (s.entryBytes n e)).hostUndef
      ∧ (s.complete n e irq).queues = (s.entered n (s.entryBytes n e)).queues := by
  obtain ⟨-, hmem, hundef, hqueues⟩ := State.alerted_host (s.entered n (s.entryBytes n e)) n e
  cases irq with
  | false =>
    simp only [State.complete_eq, herr, hidle, Bool.or_self, Bool.false_eq_true, if_false]
    exact ⟨hmem, hundef, hqueues⟩
  | true =>
    obtain ⟨-, vmem, vundef, vqueues⟩ := State.vector_host ((s.entered n (s.entryBytes n e)).alerted n e) n
    simp only [State.complete_eq, herr, hidle, Bool.or_self, Bool.false_eq_true, if_false, if_true]
    exact ⟨vmem.trans hmem, vundef.trans hundef, vqueues.trans hqueues⟩

section Close

variable {s} {h : DescHdr} (herr : (s.queue h.queue.val).err = false) (hidle : (s.queue h.queue.val).idle = false)

include herr hidle

theorem State.close_queue (e : Entry) (n : Nat) : (s.close h e).queue n =
    if n = h.queue.val then { s.queue n with cqW := (s.queue n).cqW + 1, doing := (s.queue n).doing - 1 } else s.queue n := by
  have hq (j : Nat) := State.queue_congr (s.complete_open herr hidle e (h.flags.getLsbD 0)).2.2 j
  simp only [State.entered_queue_of] at hq
  rw [State.close, State.updQueue_queue, hq, hq, if_pos rfl]
  split <;> simp_all

theorem State.close_host (e : Entry) (i : Nat) : memGet (s.close h e).hostMem (s.close h e).hostUndef i =
    if s.entryAddr h.queue.val ≤ i ∧ i < s.entryAddr h.queue.val + 128 then
      (s.entryBytes h.queue.val e).getD (i - s.entryAddr h.queue.val) 0
    else memGet s.hostMem s.hostUndef i := by
  obtain ⟨hmem, hundef, -⟩ := s.complete_open herr hidle e (h.flags.getLsbD 0)
  rw [State.close, State.updQueue_hostMem, State.updQueue_hostUndef, hmem, hundef, State.entered_host]

/-- The entry of a completion stands in the ring of its queue. -/
theorem State.close_entered {e : Entry} (htag : e.tag = h.tag) : Claims.entered s (s.close h e) h e.opcode e.status e.detail := by
  obtain ⟨tag, status, opcode, detail⟩ := s.entryBytes_fields h.queue.val e
  have hbyte {j : Nat} {b : Byte} (hj : j < 128) (hb : (s.entryBytes h.queue.val e)[j]? = some b) :
      memGet (s.close h e).hostMem (s.close h e).hostUndef (s.entryAddr h.queue.val + j) = b := by
    rw [State.close_host herr hidle, if_pos (by omega), Nat.add_sub_cancel_left, List.getD_eq_getElem?_getD, hb, Option.getD_some]
  refine ⟨by rw [State.close_queue herr hidle, if_pos rfl], fun i hi => ?_, fun i hi => ?_, ?_, fun i hi => ?_, fun i hi => ?_⟩
  · rw [← htag, Nat.add_assoc]
    exact hbyte (by omega) (tag i hi)
  · rw [Nat.add_assoc]
    exact hbyte (by omega) (status i hi)
  · exact hbyte (by omega) opcode
  · rw [Nat.add_assoc]
    exact hbyte (by omega) (detail i hi)
  · exact (State.close_host herr hidle e i).trans (if_neg fun hin => by unfold State.entryAddr at hin; omega)

end Close

/-! ### Where a completion is counted from -/

/-- The entry counts from any earlier state with the same host memory and the same place in the ring. -/
theorem entered_congr {s u t : State} {h : DescHdr} {op : Byte} {st : BitVec 16} {d : Word64}
    (hmem : u.hostMem = s.hostMem) (hundef : u.hostUndef = s.hostUndef)
    (hbase : (u.queue h.queue.val).cqb = (s.queue h.queue.val).cqb) (hlog : (u.queue h.queue.val).cqLog = (s.queue h.queue.val).cqLog)
    (hcount : (u.queue h.queue.val).cqW = (s.queue h.queue.val).cqW) (hent : Claims.entered u t h op st d) :
    Claims.entered s t h op st d := by
  simpa only [Claims.entered, hmem, hundef, hbase, hlog, hcount] using hent

/-- An operation of a descriptor under way that leaves host memory and the queues ends with its entry. -/
theorem State.entered_close {s u : State} {h : DescHdr} (herr : (s.queue h.queue.val).err = false)
    (hidle : (s.queue h.queue.val).idle = false) (hmem : u.hostMem = s.hostMem) (hundef : u.hostUndef = s.hostUndef)
    (hqueues : u.queues = s.queues) {e : Entry} (htag : e.tag = h.tag) :
    Claims.entered s (u.close h e) h e.opcode e.status e.detail
      ∧ ((u.close h e).queue h.queue.val).doing = (s.queue h.queue.val).doing - 1 := by
  have hqueue := State.queue_congr hqueues
  rw [← hqueue] at herr hidle
  refine ⟨entered_congr hmem hundef ?_ ?_ ?_ (State.close_entered herr hidle htag), ?_⟩
  · rw [hqueue]
  · rw [hqueue]
  · rw [hqueue]
  · rw [State.close_queue herr hidle, if_pos rfl, hqueue]

theorem State.entered_finish {s : State} {h : DescHdr} (herr : (s.queue h.queue.val).err = false)
    (hidle : (s.queue h.queue.val).idle = false) (u : State) (hmem : u.hostMem = s.hostMem) (hundef : u.hostUndef = s.hostUndef)
    (hqueues : u.queues = s.queues) (op : Byte) (st : BitVec 16) (d : Word64) (o : Word) :
    Claims.entered s (u.finish h op st d o) h op st d
      ∧ ((u.finish h op st d o).queue h.queue.val).doing = (s.queue h.queue.val).doing - 1 :=
  State.entered_close herr hidle (e := { tag := h.tag, status := st, opcode := op, detail := d, ord := o }) hmem hundef hqueues rfl

/-! ### A descriptor that starts -/

theorem taken_queue (h : DescHdr) (n : Nat) : (Claims.taken s h).queue n =
    if n = h.queue.val then { s.queue n with read := (s.queue n).read - 1, doing := (s.queue n).doing + 1 } else s.queue n := by
  rw [Claims.taken, State.updQueue_queue]
  split
  · next heq => rw [heq]
  · rfl

/-- A descriptor taken up leaves what its queue is set to. -/
theorem taken_queue_setting {β : Type} (F : Queue → β) (hF : ∀ q r d, F { q with read := r, doing := d } = F q) (h : DescHdr) (n : Nat) :
    F ((Claims.taken s h).queue n) = F (s.queue n) := by
  rw [taken_queue]
  split
  · exact hF ..
  · rfl

theorem taken_actsFor (h g : DescHdr) (k : BitVec 8) : (Claims.taken s h).actsFor g k = s.actsFor g k := by
  simp only [State.actsFor, State.queueSlice, taken_queue_setting s Queue.slice (fun _ _ _ => rfl)]

section Starts

variable {s} {h : DescHdr} (hstart : Claims.starts s h)

include hstart

theorem withDesc_of_starts (op : Byte) (f : State → State) (ord : Word) (chan : Byte) :
    withDesc h op f s ord chan = .next (f (Claims.taken s h)) := by
  obtain ⟨hmay, -, hop, hbad, -⟩ := hstart
  simp only [withDesc, hmay, hop, hbad, Bool.not_true, Bool.false_eq_true, if_false]
  rfl

theorem withSteward_of_starts (op : Byte) (f : State → State) : withSteward h op f s = .next (f (Claims.taken s h)) := by
  have hfree : s.stewardBusy h = false := hstart.2.1
  simp only [withSteward, hfree, Bool.false_eq_true, if_false]
  exact withDesc_of_starts hstart ..

/-- An operation that leaves host memory and the queues completes its descriptor with the entry `e`. -/
theorem State.completed_close {u : State} (hmem : u.hostMem = s.hostMem) (hundef : u.hostUndef = s.hostUndef)
    (hqueues : u.queues = (Claims.taken s h).queues) {e : Entry} (htag : e.tag = h.tag) :
    Claims.completed s (u.close h e) h e.opcode e.status e.detail := by
  obtain ⟨hmay, -, -, -, hidle⟩ := hstart
  have hown : u.queue h.queue.val =
      { s.queue h.queue.val with read := (s.queue h.queue.val).read - 1, doing := (s.queue h.queue.val).doing + 1 } := by
    rw [State.queue_congr hqueues, taken_queue, if_pos rfl]
  have hother {n : Nat} (hn : n ≠ h.queue.val) : u.queue n = s.queue n := by
    rw [State.queue_congr hqueues, taken_queue, if_neg hn]
  have herr : (s.queue h.queue.val).err = false := by
    simp only [State.mayStart, Bool.and_eq_true, Bool.not_eq_true'] at hmay
    exact hmay.1.2
  have huerr : (u.queue h.queue.val).err = false := by rw [hown]; exact herr
  have huidle : (u.queue h.queue.val).idle = false := by rw [hown]; exact hidle
  refine ⟨entered_congr hmem hundef ?_ ?_ ?_ (State.close_entered huerr huidle htag), ?_, ?_, fun n hn => ?_⟩
  · rw [hown]
  · rw [hown]
  · rw [hown]
  · rw [State.close_queue huerr huidle, if_pos rfl, hown]
  · rw [State.close_queue huerr huidle, if_pos rfl, hown]
    rfl
  · rw [State.close_queue huerr huidle, if_neg hn, hother hn]

theorem State.completed_finish (u : State) (hmem : u.hostMem = s.hostMem) (hundef : u.hostUndef = s.hostUndef)
    (hqueues : u.queues = (Claims.taken s h).queues) (op : Byte) (st : BitVec 16) (d : Word64) (o : Word) :
    Claims.completed s (u.finish h op st d o) h op st d :=
  State.completed_close hstart (e := { tag := h.tag, status := st, opcode := op, detail := d, ord := o }) hmem hundef hqueues rfl

end Starts

end Sys2Proof.Machine

/-! # Books, evictions and retirements (11 R459 to R461, R465; 07 R319)

A book is a fold over its entries. Check 10 refuses an entry whose flight is resident, so the flights of a book that passes are distinct
and each stands as its own entry gives it. An eviction takes the flight, its tokens and its heads away; at D it changes nothing else
before that. A retirement clears its slice. That shares and counters of its contexts stay is log 57.
-/
namespace Sys2Proof.Machine

variable (s : State)

theorem State.flight_congr {s u : State} (hflights : u.flights = s.flights) (f : Nat) : u.flight f = s.flight f := by
  rw [State.flight, hflights, ← State.flight]

theorem State.sl_congr {s u : State} (hslices : u.slices = s.slices) (k : Nat) : u.sl k = s.sl k := by
  rw [State.sl, hslices, ← State.sl]

theorem State.hall_congr {s u : State} (hhalls : u.halls = s.halls) (ph : Nat) : u.hall ph = s.hall ph := by
  rw [State.hall, hhalls, ← State.hall]

theorem State.ctx_congr {s u : State} (hctxs : u.ctxs = s.ctxs) (c : Nat) : u.ctx c = s.ctx c := by
  rw [State.ctx, hctxs, ← State.ctx]

theorem State.link_congr {s u : State} (hlinks : u.links = s.links) (l : Nat) : u.link l = s.link l := by
  rw [State.link, hlinks, ← State.link]

theorem SMap.get_of_not_mem_keys {α : Type} (d : α) {m : SMap α} {k : Nat} (h : k ∉ SMap.keys m) : SMap.get d m k = d := by
  induction m with
  | nil => rfl
  | cons e m ih =>
    obtain ⟨a, v⟩ := e
    simp only [SMap.keys, List.map_cons, List.mem_cons, not_or] at h
    rw [SMap.get, if_neg (Ne.symm h.1), ih h.2]

/-! ### Books (R460) -/

/-- The state without what residency writes. -/
def State.sansBook (s : State) : State := { s with mem := [], undef := [], flights := [] }

theorem State.reside_sans (k : BitVec 8) (start : Word) (e : BookEntry) : (s.reside k start e).sansBook = s.sansBook := by
  have hshare (t : State) (x : Share) : (t.placeShare x).sansBook = t.sansBook := t.each_keeps State.sansBook _ _ fun _ _ => rfl
  exact s.each_keeps State.sansBook _ _ hshare

theorem State.reside_flight (k : BitVec 8) (start : Word) (e : BookEntry) (f : Nat) : (s.reside k start e).flight f =
    if f = e.flight.toNat then some (bookFlight k (s.sl k.toNat).id.pos start e) else s.flight f := by
  have hshare (t : State) (x : Share) : (t.placeShare x).flights = t.flights := t.each_keeps State.flights _ _ fun _ _ => rfl
  rw [State.reside, State.setFlight_flight]
  rw [State.flight_congr (s.each_keeps State.flights _ _ hshare)]

/-- Check 10: the flight of an entry that passes is not resident. -/
theorem State.flight_of_binFail {k : Nat} {e : BookEntry} (h : s.binFail k e = none) : s.flight e.flight.toNat = none := by
  simp only [State.binFail, Option.or_eq_none_iff] at h
  have hten : headFail 10 0 (s.flight e.flight.toNat).isSome = none := by simp only [h]
  simpa [headFail] using hten

theorem State.resideAll_cons {s t : State} {k : BitVec 8} {start : Word} {i : Nat} {e : BookEntry} {es : List BookEntry}
    (h : s.resideAll k start i (e :: es) = .inl t) :
    s.flight e.flight.toNat = none ∧ (s.reside k start e).resideAll k start (i + 1) es = .inl t := by
  rw [State.resideAll] at h
  split at h
  · cases h
  · next hpass => exact ⟨s.flight_of_binFail hpass, h⟩

theorem State.resideAll_sans {t : State} {k : BitVec 8} {start : Word} {i : Nat} {es : List BookEntry}
    (h : s.resideAll k start i es = .inl t) : t.sansBook = s.sansBook := by
  induction es generalizing s i with
  | nil =>
    cases h
    rfl
  | cons e es ih => exact (ih _ (State.resideAll_cons h).2).trans (s.reside_sans ..)

/-- No flight of a book that passes was resident before it. -/
theorem State.resideAll_fresh {s t : State} {k : BitVec 8} {start : Word} {i : Nat} {es : List BookEntry}
    (h : s.resideAll k start i es = .inl t) : ∀ e ∈ es, s.flight e.flight.toNat = none := by
  induction es generalizing s i with
  | nil => simp
  | cons e es ih =>
    obtain ⟨hfree, hrest⟩ := State.resideAll_cons h
    refine List.forall_mem_cons.2 ⟨hfree, fun x hx => ?_⟩
    have hx := ih hrest x hx
    rw [State.reside_flight] at hx
    split at hx
    · cases hx
    · exact hx

/-- A book that passes leaves every other flight. -/
theorem State.resideAll_other {s t : State} {k : BitVec 8} {start : Word} {i : Nat} {es : List BookEntry}
    (h : s.resideAll k start i es = .inl t) {f : Nat} (hf : ∀ e ∈ es, e.flight.toNat ≠ f) : t.flight f = s.flight f := by
  induction es generalizing s i with
  | nil =>
    cases h
    rfl
  | cons e es ih =>
    obtain ⟨hne, hes⟩ := List.forall_mem_cons.1 hf
    rw [ih (State.resideAll_cons h).2 hes, State.reside_flight, if_neg (Ne.symm hne)]

/-- Each flight of a book that passes is resident as its entry gives it. -/
theorem State.resideAll_flight {s t : State} {k : BitVec 8} {start : Word} {i : Nat} {es : List BookEntry}
    (h : s.resideAll k start i es = .inl t) :
    ∀ e ∈ es, t.flight e.flight.toNat = some (bookFlight k (s.sl k.toNat).id.pos start e) := by
  induction es generalizing s i with
  | nil => simp
  | cons e es ih =>
    obtain ⟨-, hrest⟩ := State.resideAll_cons h
    have hslices : (s.reside k start e).slices = s.slices := by
      have := congrArg State.slices (s.reside_sans k start e); exact this
    refine List.forall_mem_cons.2 ⟨?_, fun x hx => ?_⟩
    · have hdistinct : ∀ x ∈ es, x.flight.toNat ≠ e.flight.toNat := fun x hx heq => by
        have hnone := State.resideAll_fresh hrest x hx
        rw [State.reside_flight, if_pos heq] at hnone
        cases hnone
      rw [State.resideAll_other hrest hdistinct, State.reside_flight, if_pos rfl]
    · rw [ih hrest x hx, State.sl_congr hslices]

/-! ### Records without a crossing source (12 R486) -/

theorem State.recordBits_cause (r : FRec) (overwrote : Bool) : (s.recordBits r overwrote).extractLsb' 0 16 = r.cause :=
  BitVec.extractLsb'_append_eq_right

theorem State.writeRecord_flt (r : FRec) :
    (s.writeRecord r).flt.seq = s.flt.seq + 1 ∧ (s.writeRecord r).flt.last.extractLsb' 0 16 = r.cause := by
  unfold State.writeRecord
  simp only
  rw [State.each_keeps (F := State.flt)]
  · refine ⟨?_, s.recordBits_cause r _⟩
    split <;> rfl
  · intro t k
    split <;> rfl

theorem State.raise_flt {r : FRec} (hsrc : r.src = none) (herrs : r.errs = []) :
    (s.raise r).flt.seq = s.flt.seq + 1 ∧ (s.raise r).flt.last.extractLsb' 0 16 = r.cause := by
  have hraise : s.raise r = s.writeRecord r := by simp only [State.raise, hsrc, herrs, State.each, List.foldl_nil]
  rw [hraise]
  exact s.writeRecord_flt r

/-- A completion with a record in its entry is a completion after the record. -/
theorem State.finishRec_eq_close (h : DescHdr) (op : Byte) (st : BitVec 16) (d : Word64) (r : FRec) (o : Word) (c : Byte) :
    s.finishRec h op st d r o c = (s.raise r).close h
      { tag := h.tag, status := st, opcode := op, detail := d, ord := o, chan := c
        record := if (s.raise r).flt.seq = s.flt.seq then none else some (s.raise r).flt.last } := rfl

/-! ### BOOK (R459 to R461) -/

/-- How a book completes, once its entries have been taken in order. -/
def State.endBook (s : State) (hdr : DescHdr) (slice : BitVec 8) (start : Word) : State ⊕ (Nat × BinFail) → State
  | .inl t => t.finish hdr 0x10 0 0 start
  | .inr (i, n, sec, off) => s.finishRec hdr 0x10 0x000A (BitVec.ofNat 64 i)
      { cause := 0x0118, slice := some slice.toNat, detail := BitVec.ofNat 64 (n + 2 ^ 16 * sec + 2 ^ 32 * off) } start

section Book

variable {s} {hdr : DescHdr} (hstart : Claims.starts s hdr) {slice : BitVec 8} {start : Word} {es : List BookEntry}
  (hne : es ≠ []) (hlen : es.length ≤ 4096) (hres : es.any entryReserved = false) (hadm : (s.sl slice.toNat).admitted = true)
  (hacts : s.actsFor hdr slice = true) (hahead : s.ahead slice.toNat start = true)

include hstart hne hlen hres hadm hacts hahead

/-- A book without a reserved value, of an admitted slice of its queue, in good time: its checks alone decide. -/
theorem exec_book : exec (.book hdr slice start es) s =
    .next ((Claims.taken s hdr).endBook hdr slice start ((Claims.taken s hdr).resideAll slice start 0 es)) := by
  have hadm' : ((Claims.taken s hdr).sl slice.toNat).admitted = true := hadm
  have hacts' : (Claims.taken s hdr).actsFor hdr slice = true := (taken_actsFor s hdr hdr slice).trans hacts
  have hahead' : (Claims.taken s hdr).ahead slice.toNat start = true := hahead
  have hempty : es.isEmpty = false := by simpa using hne
  refine (withSteward_of_starts hstart ..).trans (congrArg Host.Outcome.next ?_)
  simp only [hempty, Nat.not_lt.2 hlen, hres, hadm', hacts', hahead', decide_false, Bool.not_true, Bool.or_self, Bool.false_eq_true, if_false]
  rfl

/-- A book that passes its checks makes all its flights resident. -/
theorem exec_book_resides {u : State} (hu : (Claims.taken s hdr).resideAll slice start 0 es = .inl u) :
    ∃ t, exec (.book hdr slice start es) s = .next t ∧ Claims.completed s t hdr 0x10 0 0
      ∧ (∀ e ∈ es, t.flight e.flight.toNat = some (bookFlight slice (s.sl slice.toNat).id.pos start e))
      ∧ (∀ f, (∀ e ∈ es, e.flight.toNat ≠ f) → t.flight f = s.flight f) := by
  have hsans := State.resideAll_sans _ hu
  have hmem : u.hostMem = s.hostMem := by have := congrArg State.hostMem hsans; exact this
  have hundef : u.hostUndef = s.hostUndef := by have := congrArg State.hostUndef hsans; exact this
  have hqueues : u.queues = (Claims.taken s hdr).queues := by have := congrArg State.queues hsans; exact this
  refine ⟨u.finish hdr 0x10 0 0 start, (exec_book hstart hne hlen hres hadm hacts hahead).trans (by rw [hu]; rfl), ?_, fun e he => ?_, fun f hf => ?_⟩
  · exact State.completed_finish hstart u hmem hundef hqueues ..
  · rw [State.finish_eq_close, State.flight_congr (State.close_flights ..)]
    exact State.resideAll_flight hu e he
  · rw [State.finish_eq_close, State.flight_congr (State.close_flights ..)]
    exact State.resideAll_other hu hf

/-- A book of which an entry fails makes no flight resident and writes one record, of cause 0x0118. -/
theorem exec_book_fails {i n sec off : Nat} (hu : (Claims.taken s hdr).resideAll slice start 0 es = .inr (i, n, sec, off)) :
    ∃ t, exec (.book hdr slice start es) s = .next t
      ∧ Claims.completed s t hdr 0x10 0x000A (BitVec.ofNat 64 i) ∧ t.flights = s.flights
      ∧ t.flt.seq = s.flt.seq + 1 ∧ t.flt.last.extractLsb' 0 16 = 0x0118 := by
  let r : FRec := { cause := 0x0118, slice := some slice.toNat, detail := BitVec.ofNat 64 (n + 2 ^ 16 * sec + 2 ^ 32 * off) }
  have hsans := (Claims.taken s hdr).raise_sans r
  have hmem : ((Claims.taken s hdr).raise r).hostMem = s.hostMem := by have := congrArg State.hostMem hsans; exact this
  have hundef : ((Claims.taken s hdr).raise r).hostUndef = s.hostUndef := by have := congrArg State.hostUndef hsans; exact this
  have hflights : ((Claims.taken s hdr).raise r).flights = s.flights := by have := congrArg State.flights hsans; exact this
  obtain ⟨hseq, hlast⟩ := (Claims.taken s hdr).raise_flt (r := r) rfl rfl
  refine ⟨(Claims.taken s hdr).finishRec hdr 0x10 0x000A (BitVec.ofNat 64 i) r start,
    (exec_book hstart hne hlen hres hadm hacts hahead).trans (by rw [hu]; rfl), ?_, ?_, ?_, ?_⟩
  · exact State.completed_close hstart hmem hundef (State.raise_queues ..) rfl
  all_goals rw [State.finishRec_eq_close]
  · rw [State.close_flights, hflights]
  · rw [State.close_flt, hseq]
    rfl
  · rw [State.close_flt, hlast]

end Book

/-! ### Evictions (R465) -/

/-- The heads of flight `f` in hall `ph` are dropped. -/
def State.dropHeadsOf (s : State) (f ph : Nat) : State :=
  s.updHall ph (fun h => { h with heads := h.heads.map (fun x => if x.flight = some f then {} else x) })

/-- The state in which a flight and its heads have gone, and its tokens not yet. -/
def State.dropResident (s : State) (f : Nat) : State :=
  (s.setFlight f none).each (SMap.keys s.halls) (fun s ph => s.dropHeadsOf f ph)

theorem State.dropFlight_eq (f : Nat) : s.dropFlight f = { s.dropResident f with
    stair := { (s.dropResident f).stair with queue := (s.dropResident f).stair.queue.filter (fun y => y.branch || y.flight ≠ f) } } := rfl

/-- The loss of a flight and its heads changes flights and halls alone. -/
theorem State.dropResident_frame (f : Nat) : { s.dropResident f with flights := s.flights, halls := s.halls } = s :=
  (s.setFlight f none).each_keeps (fun t => { t with flights := s.flights, halls := s.halls }) (SMap.keys s.halls)
    (fun t ph => t.dropHeadsOf f ph) fun _ _ => rfl

/-- An eviction changes flights, heads and the token queue alone. -/
theorem State.dropFlight_frame (f : Nat) : { s.dropFlight f with flights := s.flights, halls := s.halls, stair := s.stair } = s :=
  congrArg (fun t : State => { t with stair := s.stair }) (s.dropResident_frame f)

@[simp] theorem State.dropFlight_queues (f : Nat) : (s.dropFlight f).queues = s.queues := by
  have := congrArg State.queues (s.dropFlight_frame f); exact this
@[simp] theorem State.dropFlight_hostMem (f : Nat) : (s.dropFlight f).hostMem = s.hostMem := by
  have := congrArg State.hostMem (s.dropFlight_frame f); exact this
@[simp] theorem State.dropFlight_hostUndef (f : Nat) : (s.dropFlight f).hostUndef = s.hostUndef := by
  have := congrArg State.hostUndef (s.dropFlight_frame f); exact this
@[simp] theorem State.dropFlight_slices (f : Nat) : (s.dropFlight f).slices = s.slices := by
  have := congrArg State.slices (s.dropFlight_frame f); exact this

theorem State.dropFlight_flight (f g : Nat) : (s.dropFlight f).flight g = if g = f then none else s.flight g := by
  have hflights : (s.dropFlight f).flights = (s.setFlight f none).flights :=
    (s.setFlight f none).each_keeps State.flights (SMap.keys s.halls)
    (fun t ph => t.dropHeadsOf f ph) fun _ _ => rfl
  rw [State.flight_congr hflights, State.setFlight_flight]

theorem State.dropFlight_stair (f : Nat) :
    (s.dropFlight f).stair = ⟨s.stair.transit, s.stair.queue.filter (fun y => y.branch || y.flight ≠ f)⟩ := by
  have hstair : (s.dropResident f).stair = s.stair := by have := congrArg State.stair (s.dropResident_frame f); exact this
  rw [State.dropFlight_eq, hstair]

/-- No token of an evicted flight stays in the token queue. -/
theorem State.dropFlight_tokens (f : Nat) : ∀ y ∈ (s.dropFlight f).stair.queue, y.branch = false → y.flight ≠ f := by
  intro y hy hbranch
  rw [State.dropFlight_stair] at hy
  simpa [hbranch] using (List.mem_filter.1 hy).2

/-- No hall keeps a head of an evicted flight. -/
theorem State.dropFlight_heads (f ph : Nat) : ∀ y ∈ ((s.dropFlight f).hall ph).heads, y.flight ≠ some f := by
  have hdrop (t : State) : ∀ y ∈ ((t.dropHeadsOf f ph).hall ph).heads, y.flight ≠ some f := by
    intro y hy
    rw [State.dropHeadsOf, State.updHall_hall_self] at hy
    obtain ⟨x, -, rfl⟩ := List.mem_map.1 hy
    split
    · simp
    · assumption
  have hkeep (t : State) (q : Nat) (ht : ∀ y ∈ (t.hall ph).heads, y.flight ≠ some f) :
      ∀ y ∈ ((t.dropHeadsOf f q).hall ph).heads, y.flight ≠ some f := by
    by_cases hq : ph = q
    · exact hq ▸ hdrop t
    · rwa [State.dropHeadsOf, State.updHall_hall, if_neg hq]
  change ∀ y ∈ ((s.dropResident f).hall ph).heads, y.flight ≠ some f
  by_cases hlisted : ph ∈ SMap.keys s.halls
  · exact State.each_establishes _ (fun t => ∀ y ∈ (t.hall ph).heads, y.flight ≠ some f) hlisted hdrop hkeep
  · refine State.each_inv _ (fun t => ∀ y ∈ (t.hall ph).heads, y.flight ≠ some f) _ _ hkeep ?_
    have hbare : (s.setFlight f none).hall ph = {} := SMap.get_of_not_mem_keys _ hlisted
    simp [hbare]

/-! ### EVICT -/

section Evict

variable {s} {hdr : DescHdr} (hstart : Claims.starts s hdr) {f : BitVec 16} {x : Flight} (hf : f.toNat < 4096)
  (hx : s.flight f.toNat = some x) (hacts : s.actsFor hdr x.slice = true) (ord : Word)

include hstart hf hx hacts

theorem exec_evict_idle (hrun : x.run = none) (hlaunch : (s.sl x.slice.toNat).land.launch.contains f.toNat = false) :
    exec (.evict hdr f 0xFF ord) s = .next (((Claims.taken s hdr).dropFlight f.toNat).finish hdr 0x12 0 0 0) := by
  have hx' : (Claims.taken s hdr).flight f.toNat = some x := hx
  have hlaunch' : f.toNat ∉ ((Claims.taken s hdr).sl x.slice.toNat).land.launch := fun hmem =>
    Bool.false_ne_true (hlaunch.symm.trans (List.contains_iff_mem.2 hmem))
  refine (withSteward_of_starts hstart ..).trans (congrArg Host.Outcome.next ?_)
  simp [hf, hx', taken_actsFor, hacts, hrun, hlaunch']

theorem exec_evict_running (hrun : x.run ≠ none) :
    exec (.evict hdr f 0xFF ord) s = .next ((Claims.taken s hdr).finish hdr 0x12 0x000C (f.zeroExtend 64) 0) := by
  have hx' : (Claims.taken s hdr).flight f.toNat = some x := hx
  have hbusy : x.run.isSome = true := Option.isSome_iff_ne_none.2 hrun
  refine (withSteward_of_starts hstart ..).trans (congrArg Host.Outcome.next ?_)
  simp [hf, hx', taken_actsFor, hacts, hbusy]

theorem exec_evict_waits {slice : BitVec 8} (hslice : slice ≠ 0xFF) (hadm : (s.sl slice.toNat).admitted = true)
    (hown : s.actsFor hdr slice = true) (hfinal : s.ordFinal slice.toNat ord = false) :
    exec (.evict hdr f slice ord) s = .next ((Claims.taken s hdr).updSl slice.toNat (fun y =>
      { y with evicts := y.evicts ++ [{ ord, flight := f.toNat, hdr }] })) := by
  have hx' : (Claims.taken s hdr).flight f.toNat = some x := hx
  have hadm' : ((Claims.taken s hdr).sl slice.toNat).admitted = true := hadm
  have hfinal' : (Claims.taken s hdr).ordFinal slice.toNat ord = false := hfinal
  refine (withSteward_of_starts hstart ..).trans (congrArg Host.Outcome.next ?_)
  simp [hf, hx', taken_actsFor, hacts, show ¬ slice = 255#8 from hslice, hadm', hown, hfinal']

/-- An eviction at once of a flight that does not run removes it, with its tokens and its heads. -/
theorem exec_evict_removes (hrun : x.run = none) (hlaunch : (s.sl x.slice.toNat).land.launch.contains f.toNat = false) :
    ∃ t, exec (.evict hdr f 0xFF ord) s = .next t ∧ Claims.completed s t hdr 0x12 0 0 ∧ t.flight f.toNat = none
      ∧ (∀ g, g ≠ f.toNat → t.flight g = s.flight g) ∧ (∀ ph, ∀ y ∈ (t.hall ph).heads, y.flight ≠ some f.toNat)
      ∧ t.stair.queue = s.stair.queue.filter (fun y => y.branch || y.flight ≠ f.toNat) := by
  refine ⟨_, exec_evict_idle hstart hf hx hacts ord hrun hlaunch, ?_, ?_, fun g hg => ?_, fun ph => ?_, ?_⟩
  · exact State.completed_finish hstart ((Claims.taken s hdr).dropFlight f.toNat) (State.dropFlight_hostMem ..) (State.dropFlight_hostUndef ..) (State.dropFlight_queues ..) ..
  all_goals rw [State.finish_eq_close]
  · rw [State.flight_congr (State.close_flights ..), State.dropFlight_flight, if_pos rfl]
  · rw [State.flight_congr (State.close_flights ..), State.dropFlight_flight, if_neg hg]
    rfl
  · rw [State.hall_congr (State.close_halls ..)]
    exact State.dropFlight_heads _ f.toNat ph
  · rw [State.close_stair, State.dropFlight_stair]
    rfl

/-- An eviction at once of a flight that runs ends busy, and the flight stays. -/
theorem exec_evict_busy (hrun : x.run ≠ none) :
    ∃ t, exec (.evict hdr f 0xFF ord) s = .next t ∧ Claims.completed s t hdr 0x12 0x000C (f.zeroExtend 64)
      ∧ t.flights = s.flights ∧ t.stair = s.stair :=
  ⟨_, exec_evict_running hstart hf hx hacts ord hrun, State.completed_finish hstart (Claims.taken s hdr) rfl rfl rfl .., State.close_flights ..,
    State.close_stair ..⟩

end Evict

/-! ### FLIGHT_EVICTION: an eviction that waited for D -/

/-- Waiting for D changes time alone. -/
theorem State.atReport_frame {s s1 : State} {k : Nat} {o : Word} (h : s.atReport k o = some s1) : { s1 with clk := s.clk } = s := by
  unfold State.atReport at h
  dsimp only at h
  split at h
  · cases h
    rfl
  · split at h
    · split at h
      · cases h
      · cases h
        exact s.waitUntil_frame _
    · cases h

/-- An update of a slice is what it makes of the slice as it stands. -/
theorem State.updSl_congr {k : Nat} {f g : Slice → Slice} (h : f (s.sl k) = g (s.sl k)) : s.updSl k f = s.updSl k g := by
  simp only [State.updSl, h]

/-- The state at D in which the evictions of slice `k` no longer wait. -/
def State.evictionsDone (s : State) (k : Nat) : State := s.updSl k (fun y => { y with evicts := [] })

/-- The flight of an eviction at D runs, or is in the launch set before or after its tokens count. -/
def State.evictBusy (s : State) (k f : Nat) (x : Flight) : Bool :=
  x.run.isSome || (s.sl k).land.launch.contains f || (((s.startBooks k).countTokens k).launchSet k).contains f

/-- An eviction that waited for D finds the part there as it was, but for time. -/
theorem State.atReport_evictionsDone {s s1 : State} {k : Nat} {o : Word} (h : s.atReport k o = some s1) :
    { s1.evictionsDone k with clk := s.clk, slices := s.slices } = s
      ∧ (s1.evictionsDone k).sl k = { s.sl k with evicts := [] } := by
  have hframe := State.atReport_frame h
  have hslices : s1.slices = s.slices := by have := congrArg State.slices hframe; exact this
  refine ⟨congrArg (fun t : State => { t with slices := s.slices }) hframe, ?_⟩
  rw [State.evictionsDone, State.updSl_sl_self, State.sl_congr hslices]

section FlightEviction

variable {s} {hdr : DescHdr} {slice : BitVec 8} {f : BitVec 12} {s1 : State} {o : Word} {x : Flight}
  (hevicts : (s.sl slice.toNat).evicts = [⟨o, f.toNat, hdr⟩]) (hreport : s.atReport slice.toNat o = some s1)
  (hx : s.flight f.toNat = some x)

include hevicts hreport hx

theorem exec_flightEviction : exec (.flightEviction slice f) s =
    .next (if (s1.evictionsDone slice.toNat).evictBusy slice.toNat f.toNat x then
        (s1.evictionsDone slice.toNat).finish hdr 0x12 0x000C (f.zeroExtend 64) o
      else ((s1.evictionsDone slice.toNat).dropFlight f.toNat).finish hdr 0x12 0 0 o) := by
  have hframe := State.atReport_frame hreport
  have hslices : s1.slices = s.slices := by have := congrArg State.slices hframe; exact this
  have hflights : s1.flights = s.flights := by have := congrArg State.flights hframe; exact this
  have herase : s1.updSl slice.toNat (fun y => { y with evicts := y.evicts.erase ⟨o, f.toNat, hdr⟩ }) = s1.evictionsDone slice.toNat :=
    s1.updSl_congr (by simp [State.sl_congr hslices, hevicts])
  have hx1 : (s1.evictionsDone slice.toNat).flight f.toNat = some x := (State.flight_congr hflights _).trans hx
  change execFlightEviction slice f s = _
  simp only [execFlightEviction, hevicts, List.find?_cons, decide_true, hreport, herase, hx1, State.evictBusy]
  rfl

variable (herr : (s.queue hdr.queue.val).err = false) (hidle : (s.queue hdr.queue.val).idle = false)

include herr hidle

/-- At D an eviction of a flight that is not busy removes it, with its tokens. -/
theorem exec_flightEviction_removes (hfree : (s1.evictionsDone slice.toNat).evictBusy slice.toNat f.toNat x = false) :
    ∃ t, exec (.flightEviction slice f) s = .next t ∧ Claims.entered s t hdr 0x12 0 0 ∧ t.flight f.toNat = none
      ∧ (∀ y ∈ t.stair.queue, y.branch = false → y.flight ≠ f.toNat)
      ∧ (t.sl slice.toNat).evicts = [] ∧ (t.queue hdr.queue.val).doing = (s.queue hdr.queue.val).doing - 1 := by
  obtain ⟨hframe, hsl⟩ := State.atReport_evictionsDone hreport
  have hexec := exec_flightEviction hevicts hreport hx
  rw [hfree, if_neg Bool.false_ne_true] at hexec
  generalize s1.evictionsDone slice.toNat = u at hframe hsl hexec
  have hmem : (u.dropFlight f.toNat).hostMem = s.hostMem := by
    rw [State.dropFlight_hostMem]
    have := congrArg State.hostMem hframe; exact this
  have hundef : (u.dropFlight f.toNat).hostUndef = s.hostUndef := by
    rw [State.dropFlight_hostUndef]
    have := congrArg State.hostUndef hframe; exact this
  have hqueues : (u.dropFlight f.toNat).queues = s.queues := by
    rw [State.dropFlight_queues]
    have := congrArg State.queues hframe; exact this
  obtain ⟨hentered, hdoing⟩ := State.entered_finish herr hidle (u.dropFlight f.toNat) hmem hundef hqueues 0x12 0 0 o
  refine ⟨_, hexec, hentered, ?_, ?_, ?_, hdoing⟩
  all_goals rw [State.finish_eq_close]
  · rw [State.flight_congr (State.close_flights ..), State.dropFlight_flight, if_pos rfl]
  · rw [State.close_stair]
    exact u.dropFlight_tokens f.toNat
  · rw [State.sl_congr (State.close_slices ..), State.sl_congr (State.dropFlight_slices ..), hsl]

/-- At D an eviction of a busy flight ends busy, and the flight stays. -/
theorem exec_flightEviction_busy (hbusy : (s1.evictionsDone slice.toNat).evictBusy slice.toNat f.toNat x = true) :
    ∃ t, exec (.flightEviction slice f) s = .next t ∧ Claims.entered s t hdr 0x12 0x000C (f.zeroExtend 64)
      ∧ t.flights = s.flights ∧ t.stair = s.stair ∧ (t.sl slice.toNat).evicts = [] := by
  obtain ⟨hframe, hsl⟩ := State.atReport_evictionsDone hreport
  have hexec := exec_flightEviction hevicts hreport hx
  rw [hbusy, if_pos rfl] at hexec
  generalize s1.evictionsDone slice.toNat = u at hframe hsl hexec
  have hmem : u.hostMem = s.hostMem := by have := congrArg State.hostMem hframe; exact this
  have hundef : u.hostUndef = s.hostUndef := by have := congrArg State.hostUndef hframe; exact this
  have hqueues : u.queues = s.queues := by have := congrArg State.queues hframe; exact this
  refine ⟨_, hexec, (State.entered_finish herr hidle u hmem hundef hqueues 0x12 0x000C (f.zeroExtend 64) o).1, ?_, ?_, ?_⟩
  all_goals rw [State.finish_eq_close]
  · rw [State.close_flights]
    have := congrArg State.flights hframe; exact this
  · rw [State.close_stair]
    have := congrArg State.stair hframe; exact this
  · rw [State.sl_congr (State.close_slices ..), hsl]

end FlightEviction

/-! ### RETIRE (07 R319, 08 R353, R365, R367) -/

theorem Ctx.retire_retire (x : Ctx) : x.retire.retire = x.retire := rfl

/-- Contexts retired in turn are retired, the rest stay. -/
theorem State.each_retire_ctx (l : List Nat) (c : Nat) :
    (s.each l (fun s c => s.updCtx c Ctx.retire)).ctx c = if c ∈ l then (s.ctx c).retire else s.ctx c := by
  induction l generalizing s with
  | nil => simp [State.each]
  | cons a l ih =>
    change ((s.updCtx a Ctx.retire).each l (fun s c => s.updCtx c Ctx.retire)).ctx c = _
    rw [ih, State.updCtx_ctx]
    by_cases hc : c = a
    · subst hc
      simp [Ctx.retire_retire]
    · simp [hc]

/-- The state in which the contexts of slice `k` are retired, and what far ends have announced for it stands. -/
def State.retireCtxs (s : State) (k : Nat) : State :=
  s.each ((SMap.keys s.ctxs).filter (fun c => s.ctxSlice c = k)) (fun s c => s.updCtx c Ctx.retire)

/-- What the far end of link `l` has announced for slice `k` goes. -/
def State.dropAnn (s : State) (k l : Nat) : State := s.updLink l (fun x => { x with anns := SMap.set (0, 0) x.anns k (0, 0) })

theorem State.freeCtxs_eq (k : Nat) :
    s.freeCtxs k = (s.retireCtxs k).each (SMap.keys (s.retireCtxs k).links) (fun t l => t.dropAnn k l) := rfl

theorem State.retireCtxs_frame (k : Nat) : { s.retireCtxs k with ctxs := s.ctxs } = s :=
  s.each_keeps (fun t => { t with ctxs := s.ctxs }) _ (fun t c => t.updCtx c Ctx.retire) fun _ _ => rfl

/-- The timetable storage of a slice lies in contexts and links alone. -/
theorem State.freeCtxs_frame (k : Nat) : { s.freeCtxs k with ctxs := s.ctxs, links := s.links } = s := by
  have hlinks := (s.retireCtxs k).each_keeps (fun t => { t with ctxs := s.ctxs, links := s.links })
    (SMap.keys (s.retireCtxs k).links) (fun t l => t.dropAnn k l) fun _ _ => rfl
  rw [State.freeCtxs_eq]
  exact hlinks.trans (congrArg (fun t : State => { t with links := s.links }) (s.retireCtxs_frame k))

/-- The contexts of a slice that is freed are retired. -/
theorem State.freeCtxs_ctx (k c : Nat) : (s.freeCtxs k).ctx c = if s.ctxSlice c = k then (s.ctx c).retire else s.ctx c := by
  have hctxs : (s.freeCtxs k).ctxs = (s.retireCtxs k).ctxs :=
    (s.retireCtxs k).each_keeps State.ctxs _ (fun t l => t.dropAnn k l) fun _ _ => rfl
  rw [State.ctx_congr hctxs, State.retireCtxs, State.each_retire_ctx]
  by_cases hlisted : c ∈ SMap.keys s.ctxs
  · simp [hlisted]
  · have hbare : s.ctx c = {} := SMap.get_of_not_mem_keys _ hlisted
    rw [if_neg (fun h => hlisted (List.mem_filter.1 h).1), hbare]
    split <;> rfl

/-- What far ends have announced for a slice that is freed goes. -/
theorem State.freeCtxs_anns (k l : Nat) : SMap.get (0, 0) ((s.freeCtxs k).link l).anns k = (0, 0) := by
  have hdrop (t : State) : SMap.get (0, 0) ((t.dropAnn k l).link l).anns k = (0, 0) := by
    rw [State.dropAnn, State.updLink_link_self, SMap.get_set_self]
  have hkeep (t : State) (m : Nat) (ht : SMap.get (0, 0) (t.link l).anns k = (0, 0)) :
      SMap.get (0, 0) ((t.dropAnn k m).link l).anns k = (0, 0) := by
    by_cases hm : l = m
    · exact hm ▸ hdrop t
    · rwa [State.dropAnn, State.updLink_link, if_neg hm]
  rw [State.freeCtxs_eq]
  by_cases hlisted : l ∈ SMap.keys (s.retireCtxs k).links
  · exact State.each_establishes _ (fun t => SMap.get (0, 0) (t.link l).anns k = (0, 0)) hlisted hdrop hkeep
  · refine State.each_inv _ (fun t => SMap.get (0, 0) (t.link l).anns k = (0, 0)) _ _ hkeep ?_
    have hbare : (s.retireCtxs k).link l = {} := SMap.get_of_not_mem_keys _ hlisted
    rw [hbare]
    rfl

/-- Slice `k` has left the part: its contexts are freed, what transfers hid for it shows, and its own state is gone. -/
def State.retired (s : State) (k : Nat) : State := ((s.freeCtxs k).showSlice k).updSl k (fun _ => {})

theorem State.retired_frame (k : Nat) :
    { s.retired k with ctxs := s.ctxs, links := s.links, unseen := s.unseen, slices := s.slices } = s :=
  congrArg (fun t : State => { t with unseen := s.unseen, slices := s.slices }) (s.freeCtxs_frame k)

theorem State.retired_sl (k j : Nat) : (s.retired k).sl j = if j = k then {} else s.sl j := by
  have hslices : ((s.freeCtxs k).showSlice k).slices = s.slices := by have := congrArg State.slices (s.freeCtxs_frame k); exact this
  rw [State.retired, State.updSl_sl, State.sl_congr hslices]

theorem State.retired_unseen (k : Nat) : ∀ u ∈ (s.retired k).unseen, ∀ o, u.tok ≠ some (k, o) := by
  intro u hu o htok
  have hother := (List.mem_filter.1 hu).2
  simp [htok] at hother

/-- RETIRE on the operator queue, of a slice without a resident flight for which nothing waits. -/
theorem exec_retire {s : State} {hdr : DescHdr} (hstart : Claims.starts s hdr) {slice : BitVec 8} (hop : hdr.queue.val = 0)
    (hslice : slice ≠ 0xFF) (hflights : s.flightsOf slice.toNat = []) (hevicts : (s.sl slice.toNat).evicts = [])
    (hwrites : (s.sl slice.toNat).writes = []) :
    exec (.retire hdr slice) s = .next (((Claims.taken s hdr).retired slice.toNat).finish hdr 0x21 0 0 0) := by
  have hflights' : (Claims.taken s hdr).flightsOf slice.toNat = [] := hflights
  have hevicts' : ((Claims.taken s hdr).sl slice.toNat).evicts = [] := hevicts
  have hwrites' : ((Claims.taken s hdr).sl slice.toNat).writes = [] := hwrites
  refine (withSteward_of_starts hstart ..).trans (congrArg Host.Outcome.next ?_)
  simp only [hop, hslice, hflights', hevicts', hwrites', ne_eq, not_true, decide_false, Bool.or_self, List.isEmpty_nil, Bool.not_true,
    Bool.false_eq_true, if_false]
  rfl

/-- A retirement clears its slice and its contexts, and leaves the other slices. -/
theorem exec_retire_clears {s : State} {hdr : DescHdr} (hstart : Claims.starts s hdr) {slice : BitVec 8} (hop : hdr.queue.val = 0)
    (hslice : slice ≠ 0xFF) (hflights : s.flightsOf slice.toNat = []) (hevicts : (s.sl slice.toNat).evicts = [])
    (hwrites : (s.sl slice.toNat).writes = []) :
    ∃ t, exec (.retire hdr slice) s = .next t ∧ Claims.completed s t hdr 0x21 0 0 ∧ t.sl slice.toNat = {}
      ∧ (∀ c, s.ctxSlice c = slice.toNat → t.ctx c = (s.ctx c).retire) ∧ (∀ c, s.ctxSlice c ≠ slice.toNat → t.ctx c = s.ctx c)
      ∧ (∀ l, SMap.get (0, 0) (t.link l).anns slice.toNat = (0, 0)) ∧ (∀ u ∈ t.unseen, ∀ o, u.tok ≠ some (slice.toNat, o))
      ∧ (∀ k, k ≠ slice.toNat → t.sl k = s.sl k) ∧ t.mem = s.mem := by
  have hexec := exec_retire hstart hop hslice hflights hevicts hwrites
  have hframe := (Claims.taken s hdr).retired_frame slice.toNat
  have hmem : ((Claims.taken s hdr).retired slice.toNat).hostMem = s.hostMem := by have := congrArg State.hostMem hframe; exact this
  have hundef : ((Claims.taken s hdr).retired slice.toNat).hostUndef = s.hostUndef := by
    have := congrArg State.hostUndef hframe; exact this
  have hqueues : ((Claims.taken s hdr).retired slice.toNat).queues = (Claims.taken s hdr).queues := by
    have := congrArg State.queues hframe; exact this
  have hctx (c : Nat) : ((Claims.taken s hdr).retired slice.toNat).ctx c = if s.ctxSlice c = slice.toNat then (s.ctx c).retire else s.ctx c :=
    (Claims.taken s hdr).freeCtxs_ctx slice.toNat c
  refine ⟨_, hexec, State.completed_finish hstart _ hmem hundef hqueues .., ?_, fun c hc => ?_, fun c hc => ?_, fun l => ?_, ?_,
    fun k hk => ?_, ?_⟩
  all_goals rw [State.finish_eq_close]
  · rw [State.sl_congr (State.close_slices ..), State.retired_sl, if_pos rfl]
  · rw [State.ctx_congr (State.close_ctxs ..), hctx, if_pos hc]
  · rw [State.ctx_congr (State.close_ctxs ..), hctx, if_neg hc]
  · rw [State.link_congr (State.close_links ..)]
    exact (Claims.taken s hdr).freeCtxs_anns slice.toNat l
  · rw [State.close_unseen]
    exact State.retired_unseen _ slice.toNat
  · rw [State.sl_congr (State.close_slices ..), State.retired_sl, if_neg hk]
    rfl
  · rw [State.close_mem]
    have := congrArg State.mem hframe; exact this

/-- Settles O42: a book is the fold of its entries, an eviction drops one flight or finds it busy, and a retirement frees one slice. -/
theorem bookEvictAndRetire : Obligations.BookEvictAndRetire := by
  unfold Obligations.BookEvictAndRetire
  refine fun s hdr => ⟨fun hstart => ⟨?book, ?evict, ?retire⟩, ?eviction⟩
  case book =>
    intro slice start es hne hlen hres hadm hacts hahead
    exact ⟨fun u hu => exec_book_resides hstart hne hlen hres hadm hacts hahead hu,
      fun i n sec off hu => exec_book_fails hstart hne hlen hres hadm hacts hahead hu⟩
  case evict =>
    intro f x hf hx hacts
    exact ⟨fun hrun hlaunch ord => exec_evict_removes hstart hf hx hacts ord hrun hlaunch,
      fun hrun ord => exec_evict_busy hstart hf hx hacts ord hrun,
      fun slice ord hslice hadm hown hfinal => exec_evict_waits hstart hf hx hacts ord hslice hadm hown hfinal⟩
  case retire =>
    intro slice hop hslice hflights hevicts hwrites
    exact exec_retire_clears hstart hop hslice hflights hevicts hwrites
  case eviction =>
    intro slice f s1 o x k s2 hevicts hreport hx herr hidle
    have hs2 : s2 = s1.evictionsDone k := rfl
    have hland : (s2.sl k).land = (s.sl k).land := by rw [hs2, (State.atReport_evictionsDone hreport).2]
    refine ⟨fun hrun hlaunch hset => exec_flightEviction_removes hevicts hreport hx herr hidle ?_,
      fun hbusy => exec_flightEviction_busy hevicts hreport hx herr hidle ?_⟩
    · change s2.evictBusy k f.toNat x = false
      simp only [State.evictBusy, hrun, hland, hlaunch, hset, Option.isSome_none, List.contains_nil, Bool.or_self]
    · change s2.evictBusy k f.toNat x = true
      simpa [State.evictBusy, Option.isSome_iff_ne_none, hland, or_assoc] using hbusy

end Sys2Proof.Machine

/-! # Part memory as transfers reach it (06 R246, R274; 11 R469 to R471)

The lines of a range lie end to end, so writing them one by one writes the whole range, and reading them one by one reads it. A write of
a whole line of HBM goes through the line's number; it writes the same bytes. All of this is said where no commit region maps a line
elsewhere.
-/
namespace Sys2Proof.Machine

/-! ### Bytes and the number they give -/

theorem leNat_lt (bs : List Byte) : leNat bs < 2 ^ (8 * bs.length) := by
  induction bs with
  | nil => simp [leNat]
  | cons b bs ih =>
    have hb := b.isLt
    rw [leNat, List.length_cons, Nat.mul_succ, Nat.pow_add]
    omega

theorem leBytes_leNat (bs : List Byte) : leBytes bs.length (leNat bs) = bs := by
  induction bs with
  | nil => rfl
  | cons b bs ih =>
    have hb := b.isLt
    have hdiv : (b.toNat + 256 * leNat bs) / 256 = leNat bs := by omega
    have hlow : BitVec.ofNat 8 (b.toNat + 256 * leNat bs) = b := BitVec.eq_of_toNat_eq (by rw [BitVec.toNat_ofNat]; omega)
    rw [List.length_cons, leNat, leBytes, hdiv, hlow, ih]

/-- A word made of bytes holds them. -/
theorem bvBytes_ofNat_leNat {bs : List Byte} {n w : Nat} (hn : bs.length = n) (hw : 8 * n = w) :
    bvBytes n (BitVec.ofNat w (leNat bs)) = bs := by
  subst hn hw
  rw [bvBytes, BitVec.toNat_ofNat, Nat.mod_eq_of_lt (leNat_lt bs), leBytes_leNat]

/-! ### The lines of a range lie end to end -/

/-- Pieces of the range that begins at `off` lie end to end from place `a` to place `z`, and a piece of 512 bytes is a line. -/
inductive Tiles (off : Nat) : Nat → List (Nat × Nat × Nat) → Nat → Prop
  | nil (a : Nat) : Tiles off a [] a
  | cons {a n z : Nat} {ps : List (Nat × Nat × Nat)} (hline : n = 512 → (off + a) % 512 = 0) (hrest : Tiles off (a + n) ps z) :
      Tiles off a ((off + a, a, n) :: ps) z

theorem Tiles.le {off a z : Nat} {ps : List (Nat × Nat × Nat)} (h : Tiles off a ps z) : a ≤ z := by
  induction h with
  | nil => exact Nat.le_refl _
  | cons _ _ ih => omega

theorem Tiles.append {off a b z : Nat} {ps qs : List (Nat × Nat × Nat)} (hp : Tiles off a ps b) (hq : Tiles off b qs z) :
    Tiles off a (ps ++ qs) z := by
  induction hp with
  | nil => exact hq
  | cons hline _ ih => exact .cons hline (ih hq)

/-- Piece `i` of the lines of a range. -/
def linePiece (off len i : Nat) : Nat × Nat × Nat :=
  let lo := max off (off / 512 * 512 + 512 * i)
  let hi := min (off + len) (off / 512 * 512 + 512 * (i + 1))
  (lo, lo - off, hi - lo)

/-- The first `m` lines of a range reach to the end of line `m` or of the range. -/
theorem tiles_linePiece (off len m : Nat) (hm : m ≤ (off % 512 + len + 511) / 512) :
    Tiles off 0 ((List.range m).map (linePiece off len)) (min len (512 * m - off % 512)) := by
  induction m with
  | zero => simpa using Tiles.nil 0
  | succ m ih =>
    rw [List.range_succ, List.map_append, List.map_singleton]
    refine (ih (by omega)).append ?_
    have hpiece : linePiece off len m = (off + min len (512 * m - off % 512), min len (512 * m - off % 512),
        min len (512 * (m + 1) - off % 512) - min len (512 * m - off % 512)) := by
      simp only [linePiece, Prod.mk.injEq]
      omega
    have hend : min len (512 * (m + 1) - off % 512) = min len (512 * m - off % 512)
        + (min len (512 * (m + 1) - off % 512) - min len (512 * m - off % 512)) := by omega
    rw [hpiece]
    refine .cons (by omega) ?_
    rw [← hend]
    exact .nil _

theorem tiles_linePieces (off len : Nat) : Tiles off 0 (linePieces off len) len := by
  have h := tiles_linePiece off len _ (Nat.le_refl _)
  have hend : min len (512 * ((off % 512 + len + 511) / 512) - off % 512) = len := by omega
  rwa [hend] at h

/-! ### One piece written -/

section Piece

variable (s : State)

/-- No commit region maps a line elsewhere. -/
def State.Unmapped (s : State) : Prop := ∀ a, s.dmaAddr a = a

/-- Where a line is mapped depends on the commit regions alone. -/
theorem State.dmaAddr_congr {s t : State} (h : ∀ c, (t.mc c).cregs = (s.mc c).cregs) (a : Nat) : t.dmaAddr a = s.dmaAddr a := by
  simp only [State.dmaAddr, State.mapLine, MemCtl.regionAt, h]

theorem State.Unmapped.congr {s t : State} (h : s.Unmapped) (hmcs : t.mcs = s.mcs) : t.Unmapped := fun a =>
  (State.dmaAddr_congr (fun c => by rw [State.mc, hmcs, ← State.mc]) a).trans (h a)

/-- A line that leaves the poison list leaves its controller's commit regions. -/
theorem State.plistDrop_cregs (n c : Nat) : ((s.plistDrop n).mc c).cregs = (s.mc c).cregs := by
  rw [State.plistDrop, State.updMc_mc]
  split
  · next h => rw [h]
  · rfl

theorem State.storeWrite_eq (gi off : Nat) (bs : List Byte) (p : Bool) : ∃ ups f,
    s.storeWrite gi off bs p = (({ s with upsets := ups } : State).writeBytes (storeAddr gi off) bs).updGal gi f := by
  have hfresh : ∃ ups, (if decide (bs.length = 512) then s.freshLine gi (off / 512) else s) = { s with upsets := ups } := by
    unfold State.freshLine
    split
    · split
      · exact ⟨_, rfl⟩
      · exact ⟨s.upsets, rfl⟩
    · exact ⟨s.upsets, rfl⟩
  obtain ⟨ups, hups⟩ := hfresh
  unfold State.storeWrite
  simp only [hups]
  exact ⟨ups, _, rfl⟩

/-- The offset of a byte of a gallery store, from its gallery and its place there. -/
theorem storeAddr_of_offset {off : Nat} (h : storeBase ≤ off) :
    storeAddr ((off - storeBase) / 0x200000) ((off - storeBase) % 0x200000) = off := by
  unfold storeAddr
  omega

/-- Bytes written within a line that is not mapped elsewhere stand where they are written; poison and check errors follow. -/
theorem State.partPiece_eq {off : Nat} {bs : List Byte} (hmap : s.Unmapped) (hline : bs.length = 512 → off % 512 = 0) :
    ∃ ups gals mcs, s.partPiece off bs false = { s.writeBytes off bs with upsets := ups, gals := gals, mcs := mcs }
      ∧ ∀ c, (SMap.get ({} : MemCtl) mcs c).cregs = (s.mc c).cregs := by
  unfold State.partPiece
  dsimp only
  split
  · next hstore =>
    obtain ⟨ups, f, hwrite⟩ := s.storeWrite_eq ((off - storeBase) / 0x200000) ((off - storeBase) % 0x200000) bs false
    rw [storeAddr_of_offset hstore] at hwrite
    exact ⟨_, _, _, hwrite, fun _ => rfl⟩
  · rw [hmap]
    split
    · next hwhole =>
      have hbytes : s.writeLine (off / 512 * 512) (BitVec.ofNat 4096 (leNat bs)) = s.writeBytes off bs := by
        rw [State.writeLine, bvBytes_ofNat_leNat hwhole rfl, Nat.div_mul_cancel (Nat.dvd_of_mod_eq_zero (hline hwhole))]
      rw [State.hbmWrite, hbytes]
      exact ⟨_, _, _, rfl, State.plistDrop_cregs _ (off / 512)⟩
    · exact ⟨_, _, _, rfl, fun _ => rfl⟩

/-! ### A range written and read by lines -/

/-- The state without what bytes written by a transfer change. -/
def State.sansLines (s : State) : State := { s with mem := [], undef := [], upsets := [], gals := [], mcs := [] }

/-- Pieces of `bs`, each written to its place. -/
def State.putPieces (s : State) (bs : List Byte) (ps : List (Nat × Nat × Nat)) : State :=
  s.each ps (fun s (a, at_, n) => s.partPiece a ((bs.drop at_).take n) false)

theorem State.partWrite_eq (off : Nat) (bs : List Byte) :
    s.partWrite off bs (fun _ _ => false) = s.putPieces bs (linePieces off bs.length) := rfl

/-- Pieces that lie end to end write their bytes and nothing else. -/
theorem State.putPieces_spec {off a z : Nat} {bs : List Byte} {ps : List (Nat × Nat × Nat)} (ht : Tiles off a ps z) (hz : z ≤ bs.length)
    (hmap : s.Unmapped) : (s.putPieces bs ps).sansLines = s.sansLines
      ∧ ∀ i, (s.putPieces bs ps).readByte i = if off + a ≤ i ∧ i < off + z then bs.getD (i - off) 0 else s.readByte i := by
  induction ht generalizing s with
  | nil a => exact ⟨rfl, fun i => by rw [if_neg (by omega)]; rfl⟩
  | @cons a n z ps hline hrest ih =>
    have hle := hrest.le
    have hlen : ((bs.drop a).take n).length = n := by rw [List.length_take, List.length_drop]; omega
    obtain ⟨ups, gals, mcs, hpiece, hcregs⟩ := s.partPiece_eq (off := off + a) (bs := (bs.drop a).take n) hmap
      (fun h => hline (hlen.symm.trans h))
    have hput : s.putPieces bs ((off + a, a, n) :: ps) = (s.partPiece (off + a) ((bs.drop a).take n) false).putPieces bs ps := rfl
    have hmap' : (s.partPiece (off + a) ((bs.drop a).take n) false).Unmapped := fun i =>
      (State.dmaAddr_congr (by rw [hpiece]; exact hcregs) i).trans (hmap i)
    obtain ⟨hsans, hbyte⟩ := ih _ hz hmap'
    rw [hput]
    refine ⟨hsans.trans (by rw [hpiece]; rfl), fun i => ?_⟩
    have hhere : (s.partPiece (off + a) ((bs.drop a).take n) false).readByte i =
        if off + a ≤ i ∧ i < off + a + n then bs.getD (i - off) 0 else s.readByte i := by
      have hwrite := s.readByte_writeBytes (off + a) ((bs.drop a).take n) i
      rw [hpiece]
      refine Eq.trans hwrite ?_
      simp only [hlen]
      split
      · next hin =>
        rw [List.getElem_take, List.getElem_drop, getD_of_lt (by omega)]
        congr 1
        omega
      · rfl
    rw [hbyte, hhere]
    split
    · rw [if_pos (by omega)]
    · split
      · rw [if_pos (by omega)]
      · rw [if_neg (by omega)]

/-- A transfer into part memory that no commit region maps elsewhere places its bytes. -/
theorem State.placed_partWrite (hmap : s.Unmapped) (off : Nat) (bs : List Byte) :
    (s.partWrite off bs (fun _ _ => false)).sansLines = s.sansLines
      ∧ Claims.placed s (s.partWrite off bs (fun _ _ => false)) off bs := by
  obtain ⟨hsans, hbyte⟩ := s.putPieces_spec (tiles_linePieces off bs.length) (Nat.le_refl _) hmap
  rw [State.partWrite_eq]
  refine ⟨hsans, fun i hi => ?_, fun i hi => ?_⟩
  · rw [hbyte, if_pos (by omega), Nat.add_sub_cancel_left, getD_of_lt hi]
  · rw [hbyte, if_neg (by omega)]

/-! ### A range read by lines -/

theorem State.readBytes_append (a m n : Nat) : s.readBytes a m ++ s.readBytes (a + m) n = s.readBytes a (m + n) := by
  simp only [State.readBytes, List.range_add, List.map_append, List.map_map, Function.comp_def, Nat.add_assoc]

/-- Without check errors a line that is not mapped elsewhere is read as it stands, and nothing changes. -/
theorem partReadPiece_spec {r : PartRead} {p : Nat × Nat × Nat} (hups : r.s.upsets = []) (hmap : r.s.Unmapped) :
    (partReadPiece r p).s = r.s ∧ (partReadPiece r p).bytes = r.bytes ++ r.s.readBytes p.1 p.2.2
      ∧ (partReadPiece r p).bad = r.bad := by
  obtain ⟨off, at_, n⟩ := p
  have hstore (w : Who) (line : Nat) : r.s.checkStore w line = r.s := by simp [State.checkStore, hups]
  have hhbm (line : Nat) : r.s.checkHbm .dma line = (r.s, false) := by simp [State.checkHbm, hups]
  unfold partReadPiece
  dsimp only
  split
  · simp only [hstore, and_self]
  · simp only [hhbm, hmap off]
    refine ⟨trivial, trivial, ?_⟩
    cases r.bad <;> rfl

theorem foldl_partReadPiece {off a z : Nat} {ps : List (Nat × Nat × Nat)} (ht : Tiles off a ps z) (r : PartRead)
    (hups : r.s.upsets = []) (hmap : r.s.Unmapped) :
    (ps.foldl partReadPiece r).s = r.s ∧ (ps.foldl partReadPiece r).bytes = r.bytes ++ r.s.readBytes (off + a) (z - a)
      ∧ (ps.foldl partReadPiece r).bad = r.bad := by
  induction ht generalizing r with
  | nil a => simp [State.readBytes]
  | @cons a n z ps hline hrest ih =>
    have hle := hrest.le
    obtain ⟨hs, hbytes, hbad⟩ := partReadPiece_spec (p := (off + a, a, n)) hups hmap
    obtain ⟨hs', hbytes', hbad'⟩ := ih (partReadPiece r (off + a, a, n)) (by rw [hs, hups]) (by rw [hs]; exact hmap)
    rw [List.foldl_cons]
    refine ⟨hs'.trans hs, ?_, hbad'.trans hbad⟩
    rw [hbytes', hbytes, hs, List.append_assoc, ← Nat.add_assoc, State.readBytes_append, show n + (z - (a + n)) = z - a by omega]

/-- A range that no commit region maps elsewhere is read as it stands where no check error waits, and nothing changes. -/
theorem State.partRead_spec (hups : s.upsets = []) (hmap : s.Unmapped) (off len : Nat) :
    (s.partRead off len).s = s ∧ (s.partRead off len).bytes = s.readBytes off len ∧ (s.partRead off len).bad = none :=
  foldl_partReadPiece (tiles_linePieces off len) { s } hups hmap

/-! ### When unscheduled traffic moves -/

theorem State.readByte_congr {s t : State} (hmem : t.mem = s.mem) (hundef : t.undef = s.undef) (a : Nat) : t.readByte a = s.readByte a := by
  rw [State.readByte, hmem, hundef, ← State.readByte]

/-- The last bytes of a transfer wait for their frame and their tread, and take their places; nothing else changes. -/
theorem State.unschedXfer_frame {s t : State} {off span : Nat} {write : Bool} (h : s.unschedXfer off span write = some t) :
    { t with clk := s.clk, xport := s.xport } = s := by
  have hplace {u : State} {hops : List (Nat × Nat)} (hu : { u with clk := s.clk } = s) (ht : u.unschedPlace hops = some t) :
      { t with clk := s.clk, xport := s.xport } = s := by
    obtain ⟨-, -, rfl⟩ := Option.map_eq_some_iff.1 ht
    exact congrArg (fun u : State => { u with xport := s.xport }) hu
  unfold State.unschedXfer at h
  dsimp only at h
  split at h
  · split at h
    · exact hplace (s.waitUntil_frame _) h
    · cases h
  · split at h
    · exact hplace rfl h
    · cases h

end Piece

end Sys2Proof.Machine

/-! # Transfers (11 R467 to R478)

A transfer starts where nothing holds it back, and only hides what it will write; its bytes move when it completes, and then its channel
is free. That the bytes move at completion is log 53, a choice of the model; that a transfer keeps the retry count of its start, log 117.
-/
namespace Sys2Proof.Machine

variable (s : State)

/-! ### What transfers hide (R477, R478) -/

/-- Scheduled operations see free values where a transfer will write. -/
theorem State.schedByte_hideRange (hmap : s.Unmapped) (off : Nat) {span i : Nat} (hi : i < span) (tok : Option (Nat × Word)) :
    (s.hideRange off span tok).schedByte (off + i) = Config.freeByte (s.freeCtr + 1) (off + i) := by
  have hunseen : (s.hideRange off span tok).unseen = ⟨off, off + span, s.freeCtr + 1, tok⟩ :: s.unseen := by
    simp [State.hideRange, hmap off, hmap (off + span - 1)]
  simp [State.schedByte, hunseen, undefTag, hi]

/-! ### The result of a transfer (R474) -/

/-- Whatever a transfer finds once its bytes have moved, its status says that they have. -/
theorem moved_xferResult (now : Nat) (d : DmaDesc) (bad old : Option Nat) (crc : Option Word64) :
    moved (xferResult now d bad old crc).1 = true := by
  unfold xferResult
  dsimp only
  cases hone : oneOf [47, now, d.chan.toNat, d.off.toNat] _ with
  | none => rfl
  | some r =>
    have hr := oneOf_mem hone
    simp only [List.mem_append, List.mem_map, Option.mem_toList] at hr
    rcases hr with (⟨_, -, rfl⟩ | ⟨_, -, rfl⟩) | hr
    · rfl
    · rfl
    · split at hr
      · rw [List.mem_singleton.1 hr]
        rfl
      · cases hr

theorem xferResult_clean {d : DmaDesc} (hmode : d.crcMode = 0) (now : Nat) (crc : Option Word64) :
    xferResult now d none none crc = (0x0000, d.len.zeroExtend 64) := by
  simp [xferResult, hmode, oneOf]

theorem xferSpan_plain {d : DmaDesc} (hmode : d.crcMode = 0) : xferSpan d = d.len.toNat := by simp [xferSpan, hmode]

theorem xferBytes_plain {d : DmaDesc} (hmode : d.crcMode = 0) (bs : List Byte) : xferBytes d bs = bs := by simp [xferBytes, hmode]

theorem State.raiseToken_transit (k : Byte) (d : DmaDesc) :
    (s.raiseToken k d).stair.transit.length = s.stair.transit.length + (if d.tokEn then 1 else 0) := by
  unfold State.raiseToken
  split <;> simp

/-! ### The start of a transfer (R467, R475) -/

theorem State.startXfer_empty {c : Nat} (hact : (s.chan c).act = none) : s.startXfer c = s := by
  unfold State.startXfer
  rw [hact]

/-- A transfer whose gate is shut waits. -/
theorem State.startXfer_shut {c : Nat} {j : DmaJob} (hact : (s.chan c).act = some j) (hgate : s.gateOpen j.d = false) :
    s.startXfer c = s := by
  unfold State.startXfer
  rw [hact]
  simp [hgate]

/-- The state in which transfer `j` of channel `c` has started and will move its bytes. -/
def State.started (s : State) (c : Nat) (j : DmaJob) : State :=
  let s1 := if j.op = 1 then s.hideRange j.d.off.toNat (xferSpan j.d) (seenFrom j.tokSlice j.d) else s
  s1.updChan c (fun x => { x with act := some { j with
    gated := false, started := true, tries := (s.chan c).retry, detail := j.d.len.zeroExtend 64
    hid := if j.op = 1 then s1.freeCtr else 0 } })

section Start

variable {s} {c : Nat} {j : DmaJob} (hact : (s.chan c).act = some j) (hwaits : j.started = false) (hrun : (s.chan c).halt = false)
  (hgate : s.gateOpen j.d = true)

include hact hwaits hrun hgate

/-- A commit-only transfer whose gate landing was aborted moves nothing. -/
theorem State.startXfer_aborted {o : Word} (habort : s.gateAbort j.d = some o) : s.startXfer c = s.updChan c (fun x => { x with
    act := some { j with gated := false, started := true, tries := x.retry, status := 8, detail := o.zeroExtend 64 } }) := by
  unfold State.startXfer
  rw [hact]
  simp only [hwaits, hrun, hgate, habort, Bool.or_self, Bool.not_true, Bool.false_eq_true, if_false]
  rfl

theorem State.startXfer_started (habort : s.gateAbort j.d = none) (hrange : s.xferBad j.hdr j.d (j.op = 1) = none) :
    s.startXfer c = s.started c j := by
  unfold State.startXfer
  rw [hact]
  simp only [hwaits, hrun, hgate, habort, hrange, Bool.or_self, Bool.not_true, Bool.false_eq_true, if_false]
  rfl

end Start

/-- A transfer that starts moves nothing yet. -/
theorem State.started_frame (c : Nat) (j : DmaJob) :
    { s.started c j with unseen := s.unseen, freeCtr := s.freeCtr, chans := s.chans } = s := by
  unfold State.started
  split <;> rfl

theorem State.started_act (c : Nat) (j : DmaJob) : ∃ j1, ((s.started c j).chan c).act = some j1 ∧ j1.started = true ∧ j1.gated = false
    ∧ j1.tries = (s.chan c).retry ∧ j1.op = j.op ∧ j1.d = j.d ∧ j1.data = j.data ∧ j1.ups = j.ups ∧ j1.status = j.status :=
  ⟨_, congrArg Chan.act (State.updChan_chan_self ..), rfl, rfl, rfl, rfl, rfl, rfl, rfl, rfl⟩

/-- A transfer into the part hides the bytes it will write. -/
theorem State.started_schedByte (hmap : s.Unmapped) {c : Nat} {j : DmaJob} (hop : j.op = 1) {i : Nat} (hi : i < xferSpan j.d) :
    (s.started c j).schedByte (j.d.off.toNat + i) = Config.freeByte (s.freeCtr + 1) (j.d.off.toNat + i) := by
  simp only [State.started, hop, if_true]
  exact s.schedByte_hideRange hmap _ hi _

/-- A transfer out of the part hides nothing. -/
theorem State.started_unseen {c : Nat} {j : DmaJob} (hop : j.op ≠ 1) : (s.started c j).unseen = s.unseen := by
  simp only [State.started, hop, if_false]
  rfl

/-! ### The end of a transfer (R454, R476) -/

/-- The state in which transfer `j` has left channel `c`, its bytes show or wait for its token, and its entry is not yet written. -/
def State.settleXfer (s : State) (c : Nat) (j : DmaJob) : State :=
  ({ s with
    unseen := if j.d.tokEn && moved j.status then s.unseen else s.unseen.filter (fun u => u.tag ≠ j.hid)
    stair := if moved j.status then (s.raiseToken j.tokSlice j.d).stair else s.stair } : State).updChan c
      (fun x => { x with act := none, status := j.status })

theorem State.endXfer_eq (c : Nat) (j : DmaJob) :
    s.endXfer c j = ((s.settleXfer c j).finishXfer j.hdr j.op j.d j.status j.detail j.crc).nextXfer c := by
  unfold State.endXfer State.settleXfer State.raiseToken
  cases moved j.status <;> cases j.d.tokEn <;> rfl

/-- A channel for which no transfer waits goes on with none. -/
theorem State.nextXfer_idle {c : Nat} (hact : (s.chan c).act = none) (hshd : (s.chan c).shd = none) (hwait : (s.chan c).wait = []) :
    ∃ chans, s.nextXfer c = { s with chans := chans } ∧ SMap.get ({} : Chan) chans c = s.chan c := by
  have hpromote : (s.chan c).promote = s.chan c := by
    rcases hx : s.chan c with ⟨retry, ro, halt, status, act, shd, wait⟩
    simp_all [Chan.promote]
  have hown : (s.updChan c Chan.promote).chan c = s.chan c := by rw [State.updChan_chan_self, hpromote]
  unfold State.nextXfer
  split
  · rw [State.startXfer_empty _ (by rw [hown, hact])]
    exact ⟨_, rfl, hown⟩
  · exact ⟨_, rfl, rfl⟩

/-- What the end of transfer `j` of channel `c` leaves where no other waits: its entry, its token, and a free channel. -/
structure XferEnded (s t : State) (c : Nat) (j : DmaJob) : Prop where
  bytes : ∀ a, t.readByte a = s.readByte a
  mem : t.mem = s.mem
  chan : t.chan c = { s.chan c with act := none, status := j.status }
  unseen : t.unseen = if j.d.tokEn && moved j.status then s.unseen else s.unseen.filter (fun u => u.tag ≠ j.hid)
  stair : t.stair = if moved j.status then (s.raiseToken j.tokSlice j.d).stair else s.stair
  entry : Claims.entered s t j.hdr j.op j.status j.detail
  doing : (t.queue j.hdr.queue.val).doing = (s.queue j.hdr.queue.val).doing - 1

section End

variable {s} {c : Nat} {j : DmaJob}

theorem State.xferEnded_finishXfer (herr : (s.queue j.hdr.queue.val).err = false) (hidle : (s.queue j.hdr.queue.val).idle = false) :
    XferEnded s ((s.settleXfer c j).finishXfer j.hdr j.op j.d j.status j.detail j.crc) c j := by
  obtain ⟨hentry, hdoing⟩ := State.entered_close herr hidle (u := s.settleXfer c j)
    (e := { tag := j.hdr.tag, status := j.status, opcode := j.op, crc := j.crc, detail := j.detail, chan := j.d.chan, ord := xferOrd j.d })
    rfl rfl rfl rfl
  rw [State.finishXfer_eq_close]
  refine ⟨fun a => ?_, State.close_mem .., ?_, State.close_unseen .., State.close_stair .., hentry, hdoing⟩
  · rw [State.readByte_congr (State.close_mem ..) (State.close_undef ..)]
    rfl
  · rw [State.chan, State.close_chans]
    exact State.updChan_chan_self ..

theorem XferEnded.nextXfer {t : State} (h : XferEnded s t c j) (hshd : (s.chan c).shd = none) (hwait : (s.chan c).wait = []) :
    XferEnded s (t.nextXfer c) c j := by
  obtain ⟨chans, hnext, hchan⟩ := t.nextXfer_idle (c := c) (by rw [h.chan]) (by rw [h.chan, hshd]) (by rw [h.chan, hwait])
  rw [hnext]
  exact ⟨h.bytes, h.mem, hchan.trans h.chan, h.unseen, h.stair, h.entry, h.doing⟩

theorem State.xferEnded_endXfer (hshd : (s.chan c).shd = none) (hwait : (s.chan c).wait = [])
    (herr : (s.queue j.hdr.queue.val).err = false) (hidle : (s.queue j.hdr.queue.val).idle = false) : XferEnded s (s.endXfer c j) c j := by
  rw [State.endXfer_eq]
  exact (State.xferEnded_finishXfer herr hidle).nextXfer hshd hwait

/-- A transfer that has moved its bytes raises its token. -/
theorem XferEnded.transit {t : State} (h : XferEnded s t c j) (hmoved : moved j.status = true) :
    t.stair.transit.length = s.stair.transit.length + (if j.d.tokEn then 1 else 0) := by
  rw [h.stair, if_pos hmoved, State.raiseToken_transit]

/-- A transfer that has moved its bytes goes on hiding them until its token counts, or shows them where it has none. -/
theorem XferEnded.shown {t : State} (h : XferEnded s t c j) (hmoved : moved j.status = true) :
    if j.d.tokEn then t.unseen = s.unseen else ∀ u ∈ t.unseen, u.tag ≠ j.hid := by
  rw [h.unseen, hmoved, Bool.and_true]
  split
  · rfl
  · simp

end End

/-! ### The bytes move (R470) -/

/-- Transfer `j` once its bytes have moved, with the status and detail that it ends with. -/
def DmaJob.withResult (j : DmaJob) (r : BitVec 16 × Word64) : DmaJob := { j with status := r.1, detail := r.2, crc := none, done := j.d.len }

/-- The state without what time passed and bytes moved by a transfer change. -/
def State.sansMove (s : State) : State := { s.sansLines with clk := {}, xport := {}, hostMem := [], hostUndef := [] }

/-- Until its last bytes move, a transfer that finds its frame and its tread leaves all but time and places. -/
theorem State.unschedXfer_leaves {s t : State} {off span : Nat} {write : Bool} (h : s.unschedXfer off span write = some t) :
    t.sansMove = s.sansMove ∧ (∀ a, t.readByte a = s.readByte a) ∧ t.hostMem = s.hostMem ∧ t.hostUndef = s.hostUndef
      ∧ t.upsets = s.upsets ∧ t.mcs = s.mcs := by
  have hframe := State.unschedXfer_frame h
  have hmem : t.mem = s.mem := by have := congrArg State.mem hframe; exact this
  have hundef : t.undef = s.undef := by have := congrArg State.undef hframe; exact this
  refine ⟨?_, State.readByte_congr hmem hundef, ?_, ?_, ?_, ?_⟩
  · have := congrArg State.sansMove hframe; exact this
  · have := congrArg State.hostMem hframe; exact this
  · have := congrArg State.hostUndef hframe; exact this
  · have := congrArg State.upsets hframe; exact this
  · have := congrArg State.mcs hframe; exact this

theorem State.moveXfer_in {j : DmaJob} (hop : j.op = 1) (hmode : j.d.crcMode = 0) (hlen : j.data.length = j.d.len.toNat) :
    s.moveXfer j = (s.partWrite j.d.off.toNat j.data (fun _ _ => false), j.withResult (0, j.d.len.zeroExtend 64)) := by
  have hcrc : xferCrc j.d j.data = none := by simp [xferCrc, hmode]
  simp only [State.moveXfer, hop, if_true, ← hlen, List.take_length, hcrc, xferResult_clean hmode, xferBytes_plain hmode, DmaJob.withResult]

/-- A transfer out of the part writes what part memory holds to host memory, where no check error waits. -/
theorem State.moveXfer_out {j : DmaJob} (hop : j.op = 2) (hmode : j.d.crcMode = 0) (hjob : j.ups = []) (hups : s.upsets = [])
    (hmap : s.Unmapped) : ∃ r, moved r.1 = true
      ∧ s.moveXfer j = (s.hostWrite j.d.addr.toNat (s.readBytes j.d.off.toNat j.d.len.toNat), j.withResult r) := by
  have hcrc (bs : List Byte) : xferCrc j.d bs = none := by simp [xferCrc, hmode]
  have harise : s.arise j.ups = s := by rw [State.arise, hjob, List.append_nil]
  obtain ⟨hs, hbytes, -⟩ := s.partRead_spec hups hmap j.d.off.toNat j.d.len.toNat
  have hmove : s.moveXfer j = (s.hostWrite j.d.addr.toNat (s.readBytes j.d.off.toNat j.d.len.toNat),
      j.withResult (xferResult s.now j.d (s.partRead j.d.off.toNat j.d.len.toNat).bad
        (s.partRead j.d.off.toNat j.d.len.toNat).old none)) := by
    have hout : ¬ j.op = 1 := by rw [hop]; decide
    simp only [State.moveXfer, hout, if_false, harise, hs, hbytes, hcrc, xferBytes_plain hmode]
    rfl
  exact ⟨_, moved_xferResult .., hmove⟩

/-! ### DMA_TRANSFER_COMPLETE (R454, R470) -/

section Exec

variable {s} {c : Fin 16} {j : DmaJob} (hact : (s.chan c.val).act = some j) (hstarted : j.started = true)

include hact hstarted

theorem exec_dmaTransferComplete_unmoved (hmoved : moved j.status = false) :
    exec (.dmaTransferComplete c) s = .next (s.endXfer c.val j) := by
  change execDmaTransferComplete c s = _
  unfold execDmaTransferComplete
  rw [hact]
  simp only [hstarted, hmoved, Bool.not_true, Bool.not_false, Bool.false_eq_true, if_false, if_true]

theorem exec_dmaTransferComplete_moved {s0 : State} (hmoved : moved j.status = true) (hmode : j.d.crcMode = 0)
    (hrange : s.xferBad j.hdr j.d (j.op = 1) = none) (hfree : s.unschedXfer j.d.off.toNat j.d.len.toNat (j.op = 1) = some s0) :
    exec (.dmaTransferComplete c) s = .next ((s0.moveXfer j).1.endXfer c.val (s0.moveXfer j).2) := by
  change execDmaTransferComplete c s = _
  unfold execDmaTransferComplete
  rw [hact]
  simp only [hstarted, hmoved, hrange, xferSpan_plain hmode, ite_self, hfree, Bool.not_true, Bool.false_eq_true, if_false]

end Exec

section Complete

variable {s} {c : Fin 16} {j : DmaJob} (hact : (s.chan c.val).act = some j) (hstarted : j.started = true)
  (hshd : (s.chan c.val).shd = none) (hwait : (s.chan c.val).wait = []) (herr : (s.queue j.hdr.queue.val).err = false)
  (hidle : (s.queue j.hdr.queue.val).idle = false)

section Moved

include hshd hwait herr hidle

/-- What the end of a transfer that has moved its bytes leaves, from the state before they moved. -/
theorem State.endXfer_moved {u : State} (hmove : u.sansMove = s.sansMove) {r : BitVec 16 × Word64} (hmoved : moved r.1 = true) :
    (∀ a, (u.endXfer c.val (j.withResult r)).readByte a = u.readByte a)
      ∧ Claims.entered u (u.endXfer c.val (j.withResult r)) j.hdr j.op r.1 r.2
      ∧ ((u.endXfer c.val (j.withResult r)).chan c.val).act = none
      ∧ ((u.endXfer c.val (j.withResult r)).chan c.val).status = r.1
      ∧ ((u.endXfer c.val (j.withResult r)).queue j.hdr.queue.val).doing = (s.queue j.hdr.queue.val).doing - 1
      ∧ (u.endXfer c.val (j.withResult r)).stair.transit.length = s.stair.transit.length + (if j.d.tokEn then 1 else 0)
      ∧ (if j.d.tokEn then (u.endXfer c.val (j.withResult r)).unseen = s.unseen
          else ∀ x ∈ (u.endXfer c.val (j.withResult r)).unseen, x.tag ≠ j.hid) := by
  have hchans : u.chans = s.chans := by have := congrArg State.chans hmove; exact this
  have hqueues : u.queues = s.queues := by have := congrArg State.queues hmove; exact this
  have hstair : u.stair = s.stair := by have := congrArg State.stair hmove; exact this
  have hunseen : u.unseen = s.unseen := by have := congrArg State.unseen hmove; exact this
  have hchan : u.chan c.val = s.chan c.val := by rw [State.chan, hchans, ← State.chan]
  have hqueue := State.queue_congr hqueues j.hdr.queue.val
  have hend : XferEnded u (u.endXfer c.val (j.withResult r)) c.val (j.withResult r) :=
    State.xferEnded_endXfer (by rw [hchan, hshd]) (by rw [hchan, hwait]) (hqueue ▸ herr) (hqueue ▸ hidle)
  refine ⟨hend.bytes, hend.entry, ?_, ?_, ?_, ?_, ?_⟩
  · rw [hend.chan]
  · rw [hend.chan]
    rfl
  · rw [← hqueue]
    exact hend.doing
  · rw [← hstair]
    exact hend.transit hmoved
  · rw [← hunseen]
    exact hend.shown hmoved

end Moved

include hact hstarted hshd hwait herr hidle

/-- A transfer that could not move its bytes ends with the status it has, and raises no token. -/
theorem exec_dmaTransferComplete_ends (hmoved : moved j.status = false) :
    ∃ t, exec (.dmaTransferComplete c) s = .next t ∧ Claims.entered s t j.hdr j.op j.status j.detail
      ∧ (t.chan c.val).act = none ∧ (t.chan c.val).status = j.status ∧ t.stair = s.stair
      ∧ (t.queue j.hdr.queue.val).doing = (s.queue j.hdr.queue.val).doing - 1 ∧ t.mem = s.mem := by
  have hend := State.xferEnded_endXfer hshd hwait herr hidle
  refine ⟨_, exec_dmaTransferComplete_unmoved hact hstarted hmoved, hend.entry, ?_, ?_, ?_, hend.doing, hend.mem⟩
  · rw [hend.chan]
  · rw [hend.chan]
  · rw [hend.stair, hmoved]
    rfl

variable {s0 : State} (hstatus : j.status = 0) (hmode : j.d.crcMode = 0) (hmap : s.Unmapped)
  (hrange : s.xferBad j.hdr j.d (j.op = 1) = none) (hfree : s.unschedXfer j.d.off.toNat j.d.len.toNat (j.op = 1) = some s0)

include hstatus hmode hmap hrange hfree

/-- DMA_IN places its bytes in part memory, raises its token or shows them, and frees its channel. -/
theorem exec_dmaTransferComplete_in (hop : j.op = 1) (hlen : j.data.length = j.d.len.toNat) :
    ∃ t, exec (.dmaTransferComplete c) s = .next t ∧ Claims.placed s t j.d.off.toNat j.data
      ∧ Claims.entered s t j.hdr 0x01 0 (j.d.len.zeroExtend 64)
      ∧ (t.chan c.val).act = none ∧ (t.chan c.val).status = 0
      ∧ (t.queue j.hdr.queue.val).doing = (s.queue j.hdr.queue.val).doing - 1
      ∧ t.stair.transit.length = s.stair.transit.length + (if j.d.tokEn then 1 else 0)
      ∧ (if j.d.tokEn then t.unseen = s.unseen else ∀ u ∈ t.unseen, u.tag ≠ j.hid) := by
  have hexec := exec_dmaTransferComplete_moved hact hstarted (by rw [hstatus]; rfl) hmode hrange hfree
  rw [s0.moveXfer_in hop hmode hlen] at hexec
  obtain ⟨hsans0, hread0, hmem0, hundef0, -, hmcs0⟩ := State.unschedXfer_leaves hfree
  obtain ⟨hsans, hplaced, hkept⟩ := s0.placed_partWrite (hmap.congr hmcs0) j.d.off.toNat j.data
  generalize s0.partWrite j.d.off.toNat j.data (fun _ _ => false) = u at hexec hsans hplaced hkept
  have hmem : u.hostMem = s.hostMem := by rw [← hmem0]; have := congrArg State.hostMem hsans; exact this
  have hundef : u.hostUndef = s.hostUndef := by rw [← hundef0]; have := congrArg State.hostUndef hsans; exact this
  have hmove : u.sansMove = s.sansMove := by
    rw [← hsans0]
    have := congrArg (fun t : State => { t with clk := {}, xport := {}, hostMem := [], hostUndef := [] }) hsans; exact this
  have hqueue := State.queue_congr (s := s) (u := u) (by have := congrArg State.queues hmove; exact this) j.hdr.queue.val
  obtain ⟨hbytes, hentry, hact', hstatus', hdoing, htransit, hshown⟩ :=
    State.endXfer_moved hshd hwait herr hidle hmove (r := (0, j.d.len.zeroExtend 64)) rfl
  refine ⟨_, hexec, ⟨fun i hi => ?_, fun a ha => ?_⟩, ?_, hact', hstatus', hdoing, htransit, hshown⟩
  · rw [hbytes, hplaced i hi]
  · rw [hbytes, hkept a ha, hread0]
  · rw [← hop]
    exact entered_congr hmem hundef (by rw [hqueue]) (by rw [hqueue]) (by rw [hqueue]) hentry

/-- DMA_OUT writes what part memory holds to host memory, raises its token, and frees its channel. -/
theorem exec_dmaTransferComplete_out (hop : j.op = 2) (hjob : j.ups = []) (hups : s.upsets = [])
    (hring : s.entryAddr j.hdr.queue.val + 128 ≤ j.d.addr.toNat ∨ j.d.addr.toNat + j.d.len.toNat ≤ s.entryAddr j.hdr.queue.val) :
    ∃ t, exec (.dmaTransferComplete c) s = .next t ∧ (t.chan c.val).act = none
      ∧ (∀ i < j.d.len.toNat, memGet t.hostMem t.hostUndef (j.d.addr.toNat + i) = s.readByte (j.d.off.toNat + i))
      ∧ (∀ a, (a < j.d.addr.toNat ∨ j.d.addr.toNat + j.d.len.toNat ≤ a) →
          (a < s.entryAddr j.hdr.queue.val ∨ s.entryAddr j.hdr.queue.val + 128 ≤ a) →
          memGet t.hostMem t.hostUndef a = memGet s.hostMem s.hostUndef a)
      ∧ (t.queue j.hdr.queue.val).cqW = (s.queue j.hdr.queue.val).cqW + 1
      ∧ (t.queue j.hdr.queue.val).doing = (s.queue j.hdr.queue.val).doing - 1
      ∧ t.stair.transit.length = s.stair.transit.length + (if j.d.tokEn then 1 else 0)
      ∧ ∀ a, t.readByte a = s.readByte a := by
  have hexec := exec_dmaTransferComplete_moved hact hstarted (by rw [hstatus]; rfl) hmode hrange hfree
  obtain ⟨hsans0, hread0, hmem0, hundef0, hups0, hmcs0⟩ := State.unschedXfer_leaves hfree
  obtain ⟨r, hmoved, hout⟩ := s0.moveXfer_out hop hmode hjob (hups0.trans hups) (hmap.congr hmcs0)
  rw [hout] at hexec
  let bs := s0.readBytes j.d.off.toNat j.d.len.toNat
  let u := s0.hostWrite j.d.addr.toNat bs
  have hlen : bs.length = j.d.len.toNat := by simp [bs, State.readBytes]
  have hhost (a : Nat) := s0.hostWrite_host j.d.addr.toNat bs a
  have hqueue : u.queue j.hdr.queue.val = s.queue j.hdr.queue.val :=
    State.queue_congr (by have := congrArg State.queues hsans0; exact this) _
  have haddr : u.entryAddr j.hdr.queue.val = s.entryAddr j.hdr.queue.val := by simp only [State.entryAddr, hqueue]
  obtain ⟨hbytes, hentry, hact', -, hdoing, htransit, -⟩ := State.endXfer_moved hshd hwait herr hidle (u := u) hsans0 hmoved
  obtain ⟨hcount, -, -, -, -, hrest⟩ := hentry
  change ∀ a, a < u.entryAddr j.hdr.queue.val ∨ u.entryAddr j.hdr.queue.val + 128 ≤ a → _ at hrest
  rw [haddr] at hrest
  rw [hqueue] at hcount
  refine ⟨_, hexec, hact', fun i hi => ?_, fun a ha hra => ?_, hcount, hdoing, htransit, fun a => ?_⟩
  · refine (hrest _ (by omega)).trans ((hhost _).trans ?_)
    rw [dif_pos (by omega)]
    simp [bs, State.readBytes, hread0]
  · refine (hrest a hra).trans ((hhost a).trans ?_)
    rw [dif_neg (by omega), hmem0, hundef0]
  · rw [hbytes]
    exact hread0 a

end Complete

end Sys2Proof.Machine

/-! # Starts, failures and gates of transfers (11 R467, R470, R472, R475, R482)

A transfer on a free channel starts at once; a failed read is made again while tries are left, and then halts its channel; a transfer
with a gate starts only after its gate landing has ended.
-/
namespace Sys2Proof.Machine

variable (s : State)

/-! ### DMA_IN and DMA_OUT on a free channel (R467, R470) -/

/-- The job of a transfer as its descriptor gives it. -/
def State.newJob (s : State) (op : Byte) (hdr : DescHdr) (d : DmaDesc) (data : List Byte) (ups : List Upset) : DmaJob :=
  { op, hdr, d, data, ups, gated := d.gateSlice ≠ 0xFF, started := false, done := 0, retries := 0, status := 0
    detail := 0, crc := none, tokSlice := s.tokenSlice d }

theorem State.queueXfer_free {c : Nat} (hact : (s.chan c).act = none) (hrun : (s.chan c).halt = false) (j : DmaJob) :
    s.queueXfer c j = (s.updChan c (fun x => { x with act := some j })).startXfer c := by
  have hput : s.updChan c (fun x => if x.act.isNone && !x.halt then { x with act := some j }
      else if x.shd.isNone then { x with shd := some j } else { x with wait := x.wait ++ [j] }) =
      s.updChan c (fun x => { x with act := some j }) := by simp [State.updChan, hact, hrun]
  rw [State.queueXfer, hput]

/-- Which ranges a transfer may touch turns on the grade, the fenced galleries and the commit regions. The definition is unfolded as a
constant: unfolded at an argument, the kernel would count down from the offsets it holds. -/
theorem State.rangeBad_congr {s t : State} (hcfg : t.cfg = s.cfg) (hgals : t.gals = s.gals) (hmcs : t.mcs = s.mcs)
    (off len : Nat) (write : Bool) : t.rangeBad off len write = s.rangeBad off len write := by
  have hhole (off len : Nat) : t.rangeHole off len = s.rangeHole off len := by
    unfold State.rangeHole State.gal
    rw [hcfg, hgals]
  have htouches (off len : Nat) (dbl : Bool) : t.touches off len dbl = s.touches off len dbl := by
    simp only [State.touches, State.mc, hcfg, hmcs]
  have hdef : State.rangeBad = State.rangeBad := rfl
  conv at hdef =>
    rhs
    delta State.rangeBad
  rw [hdef]
  dsimp only
  rw [hhole, htouches, htouches]

/-- Which it may use, on the windows of its queue as well. -/
theorem State.xferBad_congr {s t : State} {hdr : DescHdr} (hcfg : t.cfg = s.cfg) (hgals : t.gals = s.gals) (hmcs : t.mcs = s.mcs)
    (hwindow : ∀ off len, (t.queue hdr.queue.val).outside off len = (s.queue hdr.queue.val).outside off len) (d : DmaDesc) (write : Bool) :
    t.xferBad hdr d write = s.xferBad hdr d write := by
  have hdef : State.xferBad = State.xferBad := rfl
  conv at hdef =>
    rhs
    delta State.xferBad
  rw [hdef]
  dsimp only
  rw [hwindow, State.rangeBad_congr hcfg hgals hmcs]

/-- Whether a range may be used does not turn on the descriptors under way. -/
theorem taken_xferBad (g hdr : DescHdr) (d : DmaDesc) (write : Bool) : (Claims.taken s g).xferBad hdr d write = s.xferBad hdr d write :=
  State.xferBad_congr (State.updQueue_cfg ..) (State.updQueue_gals ..) (State.updQueue_mcs ..)
    (fun off len => taken_queue_setting s (fun q => q.outside off len) (fun _ _ _ => by simp only [Queue.outside]) g hdr.queue.val) d write

/-- Neither does what a descriptor names. -/
theorem taken_xferRefused (g hdr : DescHdr) (d : DmaDesc) : (Claims.taken s g).xferRefused hdr d = s.xferRefused hdr d := by
  have hflight : (Claims.taken s g).flight d.tokFlight.toNat = s.flight d.tokFlight.toNat :=
    State.flight_congr (State.updQueue_flights ..) _
  simp only [State.xferRefused, taken_actsFor, hflight]

theorem taken_mayUse (g hdr : DescHdr) (c : BitVec 8) : (Claims.taken s g).mayUse hdr c = s.mayUse hdr c := by
  have hchannels := taken_queue_setting s Queue.chm (fun _ _ _ => rfl) g hdr.queue.val
  simp only [State.mayUse, hchannels]

section Start

variable {s} {hdr : DescHdr} {d : DmaDesc} (htaken : s.xferRefused hdr d = false) (huse : s.mayUse hdr d.chan = true)

include htaken huse

theorem State.dma_taken (op : Byte) (data : List Byte) (ups : List Upset) : (Claims.taken s hdr).dma op hdr d data ups =
    (Claims.taken s hdr).queueXfer d.chan.toNat ((Claims.taken s hdr).newJob op hdr d data ups) := by
  simp only [State.dma, taken_xferRefused, htaken, taken_mayUse, huse, Bool.not_true, Bool.or_self, Bool.false_eq_true, if_false]
  rfl

variable (hact : (s.chan d.chan.toNat).act = none) (hrun : (s.chan d.chan.toNat).halt = false) (hgate : d.gateSlice = 0xFF)

include hact hrun hgate

/-- A transfer of which the range may be used starts at once on a free channel. -/
theorem State.dma_starts {op : Byte} (data : List Byte) (ups : List Upset) (hrange : s.xferBad hdr d (op = 1) = none) :
    ∃ u : State, { u with queues := s.queues, chans := s.chans } = s ∧ (u.chan d.chan.toNat).retry = (s.chan d.chan.toNat).retry
      ∧ (Claims.taken s hdr).dma op hdr d data ups = u.started d.chan.toNat ((Claims.taken s hdr).newJob op hdr d data ups) := by
  let j := (Claims.taken s hdr).newJob op hdr d data ups
  let u := (Claims.taken s hdr).updChan d.chan.toNat (fun x => { x with act := some j })
  have hchan : u.chan d.chan.toNat = { s.chan d.chan.toNat with act := some j } := State.updChan_chan_self ..
  have hopen : u.gateOpen j.d = true := by simp [State.gateOpen, j, State.newJob, hgate]
  have hcommits : u.gateAbort j.d = none := by simp [State.gateAbort, j, State.newJob, hgate]
  have hfree : u.xferBad j.hdr j.d (j.op = 1) = none := 
    (State.xferBad_congr (State.updChan_cfg ..) (State.updChan_gals ..) (State.updChan_mcs ..)
      (fun _ _ => by rw [State.queue_congr (State.updChan_queues ..)]) ..).trans ((taken_xferBad s hdr hdr d _).trans hrange)
  refine ⟨u, rfl, by rw [hchan], ?_⟩
  rw [State.dma_taken htaken huse, (Claims.taken s hdr).queueXfer_free hact hrun]
  exact State.startXfer_started (by rw [hchan]) rfl (by rw [hchan, hrun]) hopen hcommits hfree

variable (hstart : Claims.starts s hdr)

include hstart

/-- DMA_IN starts on a free channel, moves nothing yet, and hides what it will write. -/
theorem exec_dmaIn_starts (hmode : d.crcMode = 0) (hmap : s.Unmapped) (data : List Byte) (hrange : s.xferBad hdr d true = none) :
    ∃ t j, exec (.dmaIn hdr d data) s = .next t ∧ (t.chan d.chan.toNat).act = some j ∧ j.started = true ∧ j.status = 0 ∧ j.op = 1
      ∧ j.tries = (s.chan d.chan.toNat).retry ∧ j.d = d ∧ j.data = data ∧ t.mem = s.mem ∧ t.hostMem = s.hostMem
      ∧ (∀ i < d.len.toNat, ∃ tag, t.schedByte (d.off.toNat + i) = Config.freeByte tag (d.off.toNat + i)) := by
  have hexec : exec (.dmaIn hdr d data) s = .next ((Claims.taken s hdr).dma 0x01 hdr d data []) :=
    withDesc_of_starts hstart 0x01 (fun s => s.dma 0x01 hdr d data []) (xferOrd d) d.chan
  obtain ⟨u, hframe, hretry, hdma⟩ := State.dma_starts (op := 0x01) htaken huse hact hrun hgate data [] hrange
  obtain ⟨j, hactive, hstarted, -, htries, hop, hd, hdata, -, hstatus⟩ :=
    u.started_act d.chan.toNat ((Claims.taken s hdr).newJob 0x01 hdr d data [])
  have hstill := u.started_frame d.chan.toNat ((Claims.taken s hdr).newJob 0x01 hdr d data [])
  have humcs : u.mcs = s.mcs := by have := congrArg State.mcs hframe; exact this
  rw [hdma] at hexec
  refine ⟨_, j, hexec, hactive, hstarted, hstatus, hop, htries.trans hretry, hd, hdata, ?_, ?_, fun i hi => ⟨u.freeCtr + 1, ?_⟩⟩
  · refine Eq.trans ?_ (congrArg State.mem hframe)
    have := congrArg State.mem hstill; exact this
  · refine Eq.trans ?_ (congrArg State.hostMem hframe)
    have := congrArg State.hostMem hstill; exact this
  · exact u.started_schedByte (hmap.congr humcs) rfl ((xferSpan_plain hmode).symm ▸ hi)

/-- DMA_OUT starts on a free channel and moves nothing yet. -/
theorem exec_dmaOut_starts (ups : List Upset) (hrange : s.xferBad hdr d false = none) :
    ∃ t j, exec (.dmaOut hdr d ups) s = .next t ∧ (t.chan d.chan.toNat).act = some j ∧ j.started = true ∧ j.status = 0 ∧ j.op = 2
      ∧ j.d = d ∧ j.ups = ups ∧ t.mem = s.mem ∧ t.hostMem = s.hostMem ∧ t.unseen = s.unseen := by
  have hexec : exec (.dmaOut hdr d ups) s = .next ((Claims.taken s hdr).dma 0x02 hdr d [] ups) :=
    withDesc_of_starts hstart 0x02 (fun s => s.dma 0x02 hdr d [] ups) (xferOrd d) d.chan
  obtain ⟨u, hframe, -, hdma⟩ := State.dma_starts (op := 0x02) htaken huse hact hrun hgate [] ups hrange
  obtain ⟨j, hactive, hstarted, -, -, hop, hd, -, hups, hstatus⟩ :=
    u.started_act d.chan.toNat ((Claims.taken s hdr).newJob 0x02 hdr d [] ups)
  have hstill := u.started_frame d.chan.toNat ((Claims.taken s hdr).newJob 0x02 hdr d [] ups)
  have hshown : (u.started d.chan.toNat ((Claims.taken s hdr).newJob 0x02 hdr d [] ups)).unseen = u.unseen :=
    u.started_unseen (show ¬ (0x02 : Byte) = 1 by decide)
  rw [hdma] at hexec
  refine ⟨_, j, hexec, hactive, hstarted, hstatus, hop, hd, hups, ?_, ?_, ?_⟩
  · refine Eq.trans ?_ (congrArg State.mem hframe)
    have := congrArg State.mem hstill; exact this
  · refine Eq.trans ?_ (congrArg State.hostMem hframe)
    have := congrArg State.hostMem hstill; exact this
  · refine hshown.trans ?_
    have := congrArg State.unseen hframe; exact this

end Start

/-! ### DMA_READ_FAILURE (R472, R482) -/

section ReadFailure

variable {s} {c : Fin 16} {j : DmaJob} (hact : (s.chan c.val).act = some j) (hstarted : j.started = true) (hop : j.op = 1)
  (hmoved : moved j.status = true) (addr : Word64)

include hact hstarted hop hmoved

/-- A read that fails is made again while the transfer has tries left. -/
theorem exec_dmaReadFailure_again (htries : j.retries.toNat < j.tries.toNat) : exec (.dmaReadFailure c addr) s =
    .next (s.updChan c.val (fun x => { x with act := some { j with retries := j.retries + 1 } })) := by
  change execDmaReadFailure c addr s = _
  unfold execDmaReadFailure
  dsimp only
  rw [hact]
  simp only [hstarted, hop, hmoved, htries, ne_eq, not_true, decide_false, Bool.not_true, Bool.or_self, Bool.false_eq_true, if_false, if_true]

/-- The state in which the channel of a failed transfer has halted, and the transfer's entry is not yet written. -/
def State.failedXfer (s : State) (c : Nat) (j : DmaJob) : State :=
  ((s.spoil j.op j.d).showRange j.hid).updChan c (fun x => { x with act := none, halt := true, status := 0x0006 })

/-- After its last try a transfer ends, and its channel halts. -/
theorem exec_dmaReadFailure_ends (htries : j.tries.toNat ≤ j.retries.toNat) : exec (.dmaReadFailure c addr) s =
    .next ((s.failedXfer c.val j).finishXfer j.hdr j.op j.d 0x0006 addr none) := by
  change execDmaReadFailure c addr s = _
  unfold execDmaReadFailure
  dsimp only
  rw [hact]
  simp only [hstarted, hop, hmoved, Nat.not_lt.2 htries, ne_eq, not_true, decide_false, Bool.not_true, Bool.or_self, Bool.false_eq_true,
    if_false, State.failedXfer]

omit hact hstarted hmoved in
/-- A failed transfer into the part spoils its destination and no more of the part. -/
theorem State.spoil_frame : { s.spoil j.op j.d with mem := s.mem, undef := s.undef, freeCtr := s.freeCtr } = s := by
  have hspoil : s.spoil j.op j.d = s.partUndefine j.d.off.toNat (xferSpan j.d) := by simp [State.spoil, hop]
  rw [hspoil, State.partUndefine]
  refine s.each_keeps (fun t => { t with mem := s.mem, undef := s.undef, freeCtr := s.freeCtr }) (linePieces j.d.off.toNat (xferSpan j.d)) _ ?_
  exact fun _ _ => rfl

/-- The channel of a failed transfer halts with status 6, and its other descriptors wait. -/
theorem exec_dmaReadFailure_halts (htries : j.tries.toNat ≤ j.retries.toNat) (herr : (s.queue j.hdr.queue.val).err = false)
    (hidle : (s.queue j.hdr.queue.val).idle = false) :
    ∃ t, exec (.dmaReadFailure c addr) s = .next t ∧ Claims.entered s t j.hdr 0x01 0x0006 addr
      ∧ (t.chan c.val).act = none ∧ (t.chan c.val).halt = true ∧ (t.chan c.val).status = 6
      ∧ (t.chan c.val).shd = (s.chan c.val).shd ∧ (t.chan c.val).wait = (s.chan c.val).wait := by
  have hframe := State.spoil_frame (s := s) hop
  have hmem : (s.failedXfer c.val j).hostMem = s.hostMem := by have := congrArg State.hostMem hframe; exact this
  have hundef : (s.failedXfer c.val j).hostUndef = s.hostUndef := by have := congrArg State.hostUndef hframe; exact this
  have hqueues : (s.failedXfer c.val j).queues = s.queues := by have := congrArg State.queues hframe; exact this
  have hchans : (s.spoil j.op j.d).chans = s.chans := by have := congrArg State.chans hframe; exact this
  have hchan : ((s.failedXfer c.val j).finishXfer j.hdr j.op j.d 0x0006 addr none).chan c.val =
      { s.chan c.val with act := none, halt := true, status := 0x0006 } := by
    rw [State.chan, State.finishXfer_eq_close, State.close_chans, ← State.chan, State.failedXfer, State.updChan_chan_self]
    have hown : ((s.spoil j.op j.d).showRange j.hid).chan c.val = s.chan c.val := by
      rw [State.chan, State.chan, ← hchans]
      rfl
    rw [hown]
  obtain ⟨hentry, -⟩ := State.entered_close herr hidle hmem hundef hqueues
    (e := { tag := j.hdr.tag, status := 0x0006, opcode := j.op, crc := none, detail := addr, chan := j.d.chan, ord := xferOrd j.d }) rfl
  refine ⟨_, exec_dmaReadFailure_ends hact hstarted hop hmoved addr htries, ?_, ?_, ?_, ?_, ?_, ?_⟩
  · rw [← hop]
    exact hentry
  all_goals rw [hchan]

end ReadFailure

/-! ### DMA_GATE_OPEN (R475) -/

section Gate

variable {s} {c : Fin 16} {j : DmaJob} (hact : (s.chan c.val).act = some j) (hstor : s.foyer.stor = [])

/-- Where no storage transfer waits, a gate that opens concerns its channel alone. -/
theorem exec_dmaGateOpen {u : State} (hstart : s.startXfer c.val = u) (hnone : u.foyer.stor = []) : exec (.dmaGateOpen c) s = .next u := by
  change Host.Outcome.next ((s.startXfer c.val).openStor (s.startXfer c.val).foyer.stor.length []) = _
  rw [hstart, hnone]
  rfl

include hact hstor

theorem exec_dmaGateOpen_shut (hgate : s.gateOpen j.d = false) : exec (.dmaGateOpen c) s = .next s :=
  exec_dmaGateOpen (s.startXfer_shut hact hgate) hstor

variable (hwaits : j.started = false) (hrun : (s.chan c.val).halt = false) (hgate : s.gateOpen j.d = true)

include hwaits hrun hgate

theorem exec_dmaGateOpen_aborted {o : Word} (habort : s.gateAbort j.d = some o) : exec (.dmaGateOpen c) s =
    .next (s.updChan c.val (fun x => { x with
      act := some { j with gated := false, started := true, tries := x.retry, status := 8, detail := o.zeroExtend 64 } })) :=
  exec_dmaGateOpen (State.startXfer_aborted hact hwaits hrun hgate habort) hstor

/-- A transfer of which the gate landing has ended starts and moves nothing yet. -/
theorem exec_dmaGateOpen_starts (habort : s.gateAbort j.d = none) (hrange : s.xferBad j.hdr j.d (j.op = 1) = none) :
    ∃ t, exec (.dmaGateOpen c) s = .next t ∧ t.mem = s.mem ∧ t.hostMem = s.hostMem
      ∧ ∃ j1, (t.chan c.val).act = some j1 ∧ j1.started = true ∧ j1.gated = false ∧ j1.status = j.status ∧ j1.data = j.data := by
  have hframe := s.started_frame c.val j
  obtain ⟨j1, hactive, hstarted, hgated, -, -, -, hdata, -, hstatus⟩ := s.started_act c.val j
  have hnone : (s.started c.val j).foyer.stor = [] := by
    refine Eq.trans ?_ hstor
    have := congrArg (fun t : State => t.foyer.stor) hframe; exact this
  refine ⟨_, exec_dmaGateOpen (State.startXfer_started hact hwaits hrun hgate habort hrange) hnone, ?_, ?_, j1, hactive, hstarted, hgated,
    hstatus, hdata⟩
  · have := congrArg State.mem hframe; exact this
  · have := congrArg State.hostMem hframe; exact this

end Gate

/-- Settles O44: a transfer starts and hides what it will write, moves its bytes when it completes, is made again while it has tries
left, and waits for its gate. -/
theorem transfersMoveTheirBytes : Obligations.TransfersMoveTheirBytes := by
  unfold Obligations.TransfersMoveTheirBytes
  refine fun s => ⟨?start, fun c j hact => ⟨?complete, ?failure, ?shut, ?opened⟩⟩
  case start =>
    intro hdr d hstart htaken huse c hact hrun hgate hmode hmap
    exact ⟨fun data hrange => exec_dmaIn_starts htaken huse hact hrun hgate hstart hmode hmap data hrange,
      fun ups hrange => exec_dmaOut_starts htaken huse hact hrun hgate hstart ups hrange⟩
  case complete =>
    intro hstarted hshd hwait herr hidle
    refine ⟨exec_dmaTransferComplete_ends hact hstarted hshd hwait herr hidle, fun s0 hstatus hmode hmap hrange hfree => ⟨?_, ?_⟩⟩
    · exact exec_dmaTransferComplete_in hact hstarted hshd hwait herr hidle hstatus hmode hmap hrange hfree
    · intro hop hjob hups q ring hring
      exact exec_dmaTransferComplete_out hact hstarted hshd hwait herr hidle hstatus hmode hmap hrange hfree hop hjob hups hring
  case failure =>
    intro addr hstarted hop hmoved
    exact ⟨exec_dmaReadFailure_again hact hstarted hop hmoved addr, exec_dmaReadFailure_halts hact hstarted hop hmoved addr⟩
  case shut => exact fun hgate hstor => exec_dmaGateOpen_shut hact hstor hgate
  case opened =>
    intro hwaits hrun hgate hstor
    exact ⟨fun o habort => exec_dmaGateOpen_aborted hact hstor hwaits hrun hgate habort,
      fun habort hrange => exec_dmaGateOpen_starts hact hstor hwaits hrun hgate habort hrange⟩

end Sys2Proof.Machine

/-! # The loss of main power (13 R513; 15 Table 15.11)

A main-power stop first ends the work in progress, by refusals and completions that are no notices, so that the alert bits, the clock
and the PWR_ registers stay; it then clears every unit of the main domain. What it leaves is stated once, for every cause. That waiting
descriptors are refused and storage transfers end as on a dead link is log 58.
-/
namespace Sys2Proof.Machine

/-! ### Folds -/

/-- What the step of one element establishes and the steps of the list keep, a fold establishes. -/
theorem foldl_establishes {σ α : Type} (P : σ → Prop) {l : List α} {f : σ → α → σ} {a : α} (ha : a ∈ l)
    (hset : ∀ t, P (f t a)) (hkeep : ∀ t, P t → ∀ b ∈ l, P (f t b)) (t : σ) : P (l.foldl f t) := by
  obtain ⟨before, after, rfl⟩ := List.append_of_mem ha
  rw [List.foldl_append, List.foldl_cons]
  exact List.foldlRecOn after f (hset _) fun u hu b hb => hkeep u hu b (by simp [hb])

variable (s : State)

/-! ### Work in progress ends -/

/-- The state without what refusals and the ends of storage transfers write: records, completion entries, links and hidden ranges. -/
def State.sansEnded (s : State) : State :=
  { s.sansRecord with hostMem := [], hostUndef := [], queues := [], foyer := {}, links := [], unseen := [] }

theorem State.raise_sansEnded (r : FRec) : (s.raise r).sansEnded = s.sansEnded :=
  congrArg (fun t : State => { t with hostMem := [], hostUndef := [], queues := [], foyer := {}, links := [], unseen := [] })
    (s.raise_sans r)

/-- An entry that is no notice raises no alert. -/
theorem State.alerted_reply (n : Nat) {e : Entry} (he : e.notice = false) : s.alerted n e = s := by
  simp [State.alerted, he]

theorem State.vector_sansEnded (q : Nat) : (s.vector q).sansEnded = s.sansEnded := by
  unfold State.vector
  split <;> rfl

theorem State.close_sansEnded (h : DescHdr) {e : Entry} (he : e.notice = false) : (s.close h e).sansEnded = s.sansEnded := by
  unfold State.close
  rw [State.complete_eq, State.alerted_reply _ _ he]
  generalize s.entryBytes h.queue.val e = bs
  split
  · rfl
  · split
    · exact (State.vector_sansEnded ..).trans rfl
    · rfl

theorem State.refuse_sansEnded (h : DescHdr) (op : Byte) (o : Word) (c : Byte) : (s.refuse h op o c).sansEnded = s.sansEnded := by
  rw [State.refuse, State.finishRec_eq_close, State.close_sansEnded _ _ rfl, State.raise_sansEnded]

/-- The end of storage transfers touches no record. -/
theorem State.failStorage_frame (p : Nat) :
    (s.failStorage p).sansEnded = s.sansEnded ∧ (s.failStorage p).flt = s.flt := by
  constructor
  · refine (State.each_keeps _ State.sansEnded _ _ fun t j => ?_).trans rfl
    rw [State.finishXfer_eq_close, State.close_sansEnded _ _ rfl]
    rfl
  · refine (State.each_keeps _ State.flt _ _ fun t j => ?_).trans rfl
    rw [State.finishXfer_eq_close, State.close_flt]
    rfl

theorem State.refuseWaiting_sansEnded (k : Nat) : (s.refuseWaiting k).sansEnded = s.sansEnded := by
  refine (State.each_keeps _ State.sansEnded _ _ fun t e => t.refuse_sansEnded ..).trans ?_
  exact s.each_keeps State.sansEnded (s.sl k).evicts _ fun t e => t.refuse_sansEnded ..

theorem State.endSave_sansEnded : s.endSave.sansEnded = s.sansEnded := by
  unfold State.endSave
  split <;> rfl

/-- The state in which the work in progress has ended. -/
def State.workEnded (s : State) : State :=
  let s1 := s.each ((List.range 30).filter (fun p => s.hasPort p && s.role p 0 = 0x20)) (fun s p => s.failStorage p)
  (s1.each s1.admitted (fun s k => s.refuseWaiting k)).endSave

theorem State.workEnded_sansEnded : s.workEnded.sansEnded = s.sansEnded := by
  rw [State.workEnded, State.endSave_sansEnded, State.each_keeps _ State.sansEnded _ _ fun t k => t.refuseWaiting_sansEnded k,
    State.each_keeps _ State.sansEnded _ _ fun t p => (t.failStorage_frame p).1]

/-! ### The main domain loses its state -/

/-- Main power leaves `t` of the state `s`: each unit of the main domain as a reset leaves it, HBM undefined, and ARC_GLOBAL, the
configuration and time as they were. -/
structure State.MainLost (s t : State) : Prop where
  slices : t.slices = []
  flights : t.flights = []
  links : t.links = []
  ports : t.ports = []
  ctxs : t.ctxs = []
  bays : t.bays = []
  mcs : t.mcs = []
  relays : t.relays = []
  stair : t.stair = {}
  linkmap : t.linkmap = s.linkmap
  cfg : t.cfg = s.cfg
  clk : t.clk = s.clk
  halls : ∀ ph < 64, (t.hall ph).st = .absent ∨ (t.hall ph).st = .asleep ∨ (t.hall ph).st = .withdrawn
  hbm : ∀ a < hbmBytes s.cfg.grade, ∃ tag, t.readByte a = Config.freeByte tag a

theorem State.resetHall_st (ph : Nat) (failed : Bool) : (s.resetHall ph failed).st = .absent ∨ (s.resetHall ph failed).st = .asleep
    ∨ (s.resetHall ph failed).st = .withdrawn := by
  unfold State.resetHall
  dsimp only
  split
  · exact .inl rfl
  · split
    · exact .inr (.inr rfl)
    · exact .inr (.inl rfl)

theorem State.resetHalls_halls (keep : Bool) : (s.resetHalls keep).halls = (List.range 64).foldl
    (fun m ph => SMap.set {} m ph (s.resetHall ph (keep && (s.hall ph).pwr.failed))) [] := rfl

theorem State.resetHalls_st (keep : Bool) {ph : Nat} (hph : ph < 64) : ((s.resetHalls keep).hall ph).st = .absent
    ∨ ((s.resetHalls keep).hall ph).st = .asleep ∨ ((s.resetHalls keep).hall ph).st = .withdrawn := by
  rw [State.hall, State.resetHalls_halls]
  refine foldl_establishes (fun m : SMap Hall => (SMap.get {} m ph).st = .absent ∨ (SMap.get {} m ph).st = .asleep
    ∨ (SMap.get {} m ph).st = .withdrawn) (List.mem_range.2 hph) (fun m => ?_) (fun m hm q _ => ?_) []
  · rw [SMap.get_set_self]
    exact s.resetHall_st ..
  · rw [SMap.get_set]
    split
    · exact s.resetHall_st ..
    · exact hm

/-- The state with the main domain cleared, before the halls are reset. -/
def State.mainCleared (s : State) : State :=
  let s2 := s.workEnded
  { s2 with
    xport := {}, mcs := [], ports := [], links := [], ctxs := [], bays := [], arcs := [], relays := [], inbox := []
    flights := [], slices := [], stair := {}, upsets := [], unseen := []
    flt := { s2.flt with xing := [] }
    tim := { s2.tim with idleGap := [], idleW := [] } }

theorem State.dropMain_eq :
    s.dropMain = ((s.mainCleared.resetHalls true).undefine 0 (hbmBytes s.cfg.grade)).publish := rfl

theorem State.dropMain_pwr : s.dropMain.pwr = s.pwr := by
  have h := congrArg State.pwr s.workEnded_sansEnded; exact h

theorem State.dropMain_sec : s.dropMain.sec = s.sec := by
  have h := congrArg State.sec s.workEnded_sansEnded; exact h

theorem State.dropMain_cfg : s.dropMain.cfg = s.cfg := by
  have h := congrArg State.cfg s.workEnded_sansEnded; exact h

theorem State.dropMain_halls : s.dropMain.halls = (s.mainCleared.resetHalls true).halls := by
  rw [State.dropMain_eq]
  generalize s.mainCleared.resetHalls true = t
  rfl

theorem State.mainLost_dropMain : s.MainLost s.dropMain where
  slices := rfl
  flights := rfl
  links := rfl
  ports := rfl
  ctxs := rfl
  bays := rfl
  mcs := rfl
  relays := rfl
  stair := rfl
  linkmap := by have h := congrArg State.linkmap s.workEnded_sansEnded; exact h
  cfg := s.dropMain_cfg
  clk := by have h := congrArg State.clk s.workEnded_sansEnded; exact h
  halls ph hph := by
    rw [State.hall_congr (s := s.mainCleared.resetHalls true) s.dropMain_halls]
    exact s.mainCleared.resetHalls_st true hph
  hbm a ha := by
    rw [State.dropMain_eq]
    generalize s.mainCleared.resetHalls true = t
    exact ⟨_, (t.readByte_undefine 0 (hbmBytes s.cfg.grade) a).trans (if_pos ⟨Nat.zero_le a, ha⟩)⟩

/-! ### The stop -/

/-- A main-power stop for the cause given leaves `t` of the state `s`. -/
structure State.Stopped (s t : State) (cause : BitVec 4) (source : Byte) : Prop where
  state : t.pwr.state = 4
  in54 : t.pwr.in54 = s.pwr.in54
  evtCause : t.pwr.evtCause = cause
  evtCount : t.pwr.evtCount = satInc s.pwr.evtCount
  evtSource : t.pwr.evtSource = if cause = 3 then source else 0
  alert : t.sec.alert = s.sec.alert ||| 1
  lost : s.MainLost t

/-- The state with a main-power stop recorded in PWR_EVT. -/
def State.stopRecorded (s : State) (cause : BitVec 4) (source : Byte) : State :=
  { s with pwr := { s.pwr with state := 4, evtCause := cause, evtCount := satInc s.pwr.evtCount
                               evtSource := if cause = 3 then source else 0 } }

theorem State.mainStop_eq {s : State} (hstate : s.pwr.state = 3) (cause : BitVec 4) (source : Byte) : s.mainStop cause source =
    { (s.stopRecorded cause source).dropMain with sec := { s.sec with alert := s.sec.alert ||| 1 } } := by
  have hsec : (s.stopRecorded cause source).dropMain.sec = s.sec := State.dropMain_sec _
  have hstops : s.mainStop cause source = { (s.stopRecorded cause source).dropMain with
      sec := { (s.stopRecorded cause source).dropMain.sec with
        alert := (s.stopRecorded cause source).dropMain.sec.alert ||| 1 } } := if_pos (by simp [hstate])
  rw [hstops, hsec]

theorem State.stopped_mainStop {s : State} (hstate : s.pwr.state = 3) (cause : BitVec 4) (source : Byte) :
    s.Stopped (s.mainStop cause source) cause source := by
  have hpwr := (s.stopRecorded cause source).dropMain_pwr
  have hlost := (s.stopRecorded cause source).mainLost_dropMain
  rw [State.mainStop_eq hstate]
  generalize (s.stopRecorded cause source).dropMain = t at hpwr hlost ⊢
  obtain ⟨slices, flights, links, ports, ctxs, bays, mcs, relays, stair, linkmap, cfg, clk, halls, hbm⟩ := hlost
  refine ⟨?_, ?_, ?_, ?_, ?_, rfl,
    ⟨slices, flights, links, ports, ctxs, bays, mcs, relays, stair, linkmap, cfg, clk, halls, hbm⟩⟩
  all_goals
    simp only [hpwr]
    rfl

end Sys2Proof.Machine

/-! # Temperatures, refresh bands and thermal trips (13 R528, R530; 06 R260)

A reading sets the temperatures of distinct sources, lets the telemetry cross with them, and trips where a source has reached 110 °C. A
trip over a list of readings stops main power for one of the hot ones, and leaves the state where there is none. The spacing of the
readings is log 118; which of several hot sources a trip names is log 62.
-/
namespace Sys2Proof.Machine

variable (s : State)

/-! ### The trip (R530) -/

theorem State.trip_of_cool {l : List (Nat × Nat)} (hcool : ∀ x ∈ l, x.2 < 110) : s.trip l = s := by
  have hnone : l.filter (fun x => 110 ≤ x.2) = [] :=
    List.filter_eq_nil_iff.2 fun x hx => by simpa using hcool x hx
  rw [State.trip, hnone]
  rfl

/-- A trip stops main power for one of the sources that have reached 110 °C. -/
theorem State.trip_of_hot {s : State} (hstate : s.pwr.state = 3) {l : List (Nat × Nat)} (hhot : ∃ x ∈ l, 110 ≤ x.2) :
    ∃ x ∈ l, 110 ≤ x.2 ∧ s.Stopped (s.trip l) 3 (BitVec.ofNat 8 x.1) := by
  have hsome : (oneOf [62, s.now] (l.filter (fun x => 110 ≤ x.2))).isSome = true := by
    obtain ⟨x, hx, htemp⟩ := hhot
    rw [oneOf_isSome, Bool.not_eq_true', List.isEmpty_eq_false_iff]
    exact List.ne_nil_of_mem (List.mem_filter.2 ⟨hx, by simpa using htemp⟩)
  obtain ⟨x, hx⟩ := Option.isSome_iff_exists.1 hsome
  obtain ⟨hmem, htemp⟩ := List.mem_filter.1 (oneOf_mem hx)
  have htrip : s.trip l = s.mainStop 3 (BitVec.ofNat 8 x.1) := by simp [State.trip, hx]
  exact ⟨x, hmem, by simpa using htemp, htrip ▸ State.stopped_mainStop hstate ..⟩

/-! ### The sources of a reading -/

theorem mem_sources {n : Nat} {l : List Nat} {x : Nat × Nat} : x ∈ sources n l ↔ ∃ i, l[i]? = some x.2 ∧ x.1 = n + i := by
  obtain ⟨k, y⟩ := x
  simp only [sources, List.mem_map, Prod.exists, List.mem_zipIdx_iff_getElem?, Prod.mk.injEq]
  constructor
  · rintro ⟨y, i, hy, rfl, rfl⟩
    exact ⟨i, hy, rfl⟩
  · rintro ⟨i, hy, rfl⟩
    exact ⟨y, i, hy, rfl, rfl⟩

/-- The readings of the halls that the part has. -/
def State.hallReadings (t : Temps) : List (Nat × Nat) := (sources 0 (t.halls.take 64)).filter (fun x => (s.hall x.1).st != .absent)

/-- The readings of the arcades that the part has. -/
def State.arcadeReadings (t : Temps) : List (Nat × Nat) :=
  (sources 64 (t.arcades.take 5)).filter (fun x => x.1 < 64 + arcadesOf s.cfg.grade)

/-- Every reading of the sensors, by the number of its source. -/
def State.readings (t : Temps) : List (Nat × Nat) := s.hallReadings t ++ s.arcadeReadings t ++ [(69, t.atrium)]

theorem State.mem_hallReadings {t : Temps} {ph y : Nat} : (ph, y) ∈ s.hallReadings t ↔
    ph < 64 ∧ t.halls[ph]? = some y ∧ (s.hall ph).st ≠ .absent := by
  simp only [State.hallReadings, List.mem_filter, mem_sources, List.getElem?_take, bne_iff_ne, Nat.zero_add]
  constructor
  · rintro ⟨⟨i, hy, rfl⟩, hst⟩
    split at hy
    · next hlt => exact ⟨hlt, hy, hst⟩
    · cases hy
  · rintro ⟨hlt, hy, hst⟩
    exact ⟨⟨ph, by rwa [if_pos hlt], rfl⟩, hst⟩

theorem arcadesOf_le (g : Grade) : arcadesOf g ≤ 5 := by cases g <;> decide

theorem State.mem_arcadeReadings {t : Temps} {n y : Nat} : (n, y) ∈ s.arcadeReadings t ↔
    64 ≤ n ∧ n - 64 < arcadesOf s.cfg.grade ∧ t.arcades[n - 64]? = some y := by
  have hle := arcadesOf_le s.cfg.grade
  simp only [State.arcadeReadings, List.mem_filter, mem_sources, List.getElem?_take, decide_eq_true_eq]
  constructor
  · rintro ⟨⟨i, hy, rfl⟩, hlt⟩
    rw [if_pos (by omega)] at hy
    exact ⟨by omega, by omega, by rwa [Nat.add_sub_cancel_left]⟩
  · rintro ⟨hle', hlt, hy⟩
    exact ⟨⟨n - 64, by rwa [if_pos (by omega)], by omega⟩, by omega⟩

theorem State.readings_cool {t : Temps} (hcool : ∀ y ∈ t.halls ++ t.arcades ++ [t.atrium], y < 110) :
    ∀ x ∈ s.readings t, x.2 < 110 := by
  rintro ⟨n, y⟩ hx
  refine hcool y ?_
  simp only [State.readings, List.mem_append, List.mem_singleton, Prod.mk.injEq] at hx ⊢
  rcases hx with (hall | arcade) | ⟨-, rfl⟩
  · obtain ⟨-, hy, -⟩ := s.mem_hallReadings.1 hall
    exact .inl (.inl (List.mem_of_getElem? hy))
  · obtain ⟨-, -, hy⟩ := s.mem_arcadeReadings.1 arcade
    exact .inl (.inr (List.mem_of_getElem? hy))
  · exact .inr rfl

theorem State.readings_hot {t : Temps} (hhot : (∃ ph y, ph < 64 ∧ t.halls[ph]? = some y ∧ (s.hall ph).st ≠ .absent ∧ 110 ≤ y)
      ∨ (∃ a y, a < arcadesOf s.cfg.grade ∧ t.arcades[a]? = some y ∧ 110 ≤ y) ∨ 110 ≤ t.atrium) :
    ∃ x ∈ s.readings t, 110 ≤ x.2 := by
  simp only [State.readings, List.mem_append, List.mem_singleton]
  rcases hhot with ⟨ph, y, hlt, hy, hst, hot⟩ | ⟨a, y, hlt, hy, hot⟩ | hot
  · exact ⟨(ph, y), .inl (.inl (s.mem_hallReadings.2 ⟨hlt, hy, hst⟩)), hot⟩
  · refine ⟨(64 + a, y), .inl (.inr (s.mem_arcadeReadings.2 ⟨by omega, ?_, ?_⟩)), hot⟩
    · rwa [Nat.add_sub_cancel_left]
    · rwa [Nat.add_sub_cancel_left]
  · exact ⟨(69, t.atrium), .inr rfl, hot⟩

/-- The number of a source says which sensor gave its reading. -/
theorem State.source_of_reading {t : Temps} {n y : Nat} (hx : (n, y) ∈ s.readings t) :
    (n < 64 ∧ t.halls[n]? = some y) ∨ (64 ≤ n ∧ n < 69 ∧ t.arcades[n - 64]? = some y) ∨ (n = 69 ∧ y = t.atrium) := by
  simp only [State.readings, List.mem_append, List.mem_singleton, Prod.mk.injEq] at hx
  rcases hx with (hall | arcade) | hatrium
  · obtain ⟨hlt, hy, -⟩ := s.mem_hallReadings.1 hall
    exact .inl ⟨hlt, hy⟩
  · obtain ⟨hle, hlt, hy⟩ := s.mem_arcadeReadings.1 arcade
    have hfive := arcadesOf_le s.cfg.grade
    exact .inr (.inl ⟨hle, by omega, hy⟩)
  · exact .inr (.inr hatrium)

/-! ### The registers after a reading (R528) -/

/-- The temperature of a hall as its register shows it. -/
def State.showTemp (s : State) (x : Nat × Nat) : State :=
  s.updHall x.1 (fun h => { h with pwr := { h.pwr with temp := BitVec.ofNat 8 (min x.2 255) } })

/-- The temperatures of the arcades as their registers show them. -/
def arcadeTemps (m : SMap Nat) (l : List (Nat × Nat)) : SMap Nat := l.foldl (fun m x => SMap.set 0 m (x.1 - 64) x.2) m

/-- The state with the temperatures of a reading in the PWR_ registers, before the telemetry crosses. -/
def State.shown (s : State) (t : Temps) : State :=
  let s2 := ({ s with pwr := { s.pwr with atrTemp := t.atrium, sensorAt := s.now + 1600 } }).each (s.hallReadings t) State.showTemp
  { s2 with pwr := { s2.pwr with arcTemp := arcadeTemps s2.pwr.arcTemp (s.arcadeReadings t) } }

theorem State.takeTemps_eq {s : State} (hon : s.mainOn = true) (t : Temps) :
    s.takeTemps t = (s.shown t).telemetry.trip (s.readings t) := if_pos hon

/-- Main power, the sensors' registers, time and memory, as telemetry leaves them. -/
def State.sensed (s : State) : BitVec 3 × Nat × Nat × SMap Nat × Clk × List Host.Cell :=
  (s.pwr.state, s.pwr.atrTemp, s.pwr.sensorAt, s.pwr.arcTemp, s.clk, s.mem)

/-- The record of a hall, as telemetry leaves it. -/
def State.hallSensed (s : State) (ph : Nat) : HallSt × HallReg × Byte := ((s.hall ph).st, (s.hall ph).reg, (s.hall ph).pwr.temp)

theorem State.telemetry_sensed : s.telemetry.sensed = s.sensed := by
  unfold State.telemetry
  extract_lets n m crossed
  have hcrossed : crossed.sensed = s.sensed := by
    refine s.each_keeps State.sensed _ _ fun t ph => ?_
    split <;> rfl
  clear_value crossed
  exact hcrossed

theorem State.telemetry_hallSensed (ph : Nat) : s.telemetry.hallSensed ph = s.hallSensed ph := by
  unfold State.telemetry
  extract_lets n m crossed
  have hcrossed : crossed.hallSensed ph = s.hallSensed ph := by
    refine s.each_keeps (fun t => t.hallSensed ph) _ _ fun t q => ?_
    split
    · simp only [State.hallSensed, State.updHall_hall]
      split
      · next heq => rw [heq]
      · rfl
    · rfl
  clear_value crossed
  exact hcrossed

theorem State.shown_sensed (t : Temps) : (s.shown t).sensed =
    (s.pwr.state, t.atrium, s.now + 1600, arcadeTemps s.pwr.arcTemp (s.arcadeReadings t), s.clk, s.mem) := by
  have hkeeps := State.each_keeps { s with pwr := { s.pwr with atrTemp := t.atrium, sensorAt := s.now + 1600 } } State.sensed
    (s.hallReadings t) State.showTemp fun _ _ => rfl
  simp only [State.sensed, Prod.mk.injEq] at hkeeps
  obtain ⟨hstate, hatrium, hat, harcades, hclk, hmem⟩ := hkeeps
  simp only [State.sensed, State.shown, hstate, hatrium, hat, harcades, hclk, hmem]

/-- Each hall of a reading shows its own temperature: no other reading is of that hall. -/
theorem State.shown_hall {t : Temps} {ph y : Nat} (hph : (ph, y) ∈ s.hallReadings t) :
    (s.shown t).hallSensed ph = ((s.hall ph).st, (s.hall ph).reg, BitVec.ofNat 8 (min y 255)) := by
  have hst := State.each_keeps { s with pwr := { s.pwr with atrTemp := t.atrium, sensorAt := s.now + 1600 } }
    (fun u => ((u.hall ph).st, (u.hall ph).reg)) (s.hallReadings t) State.showTemp fun u x => by
      simp only [State.showTemp, State.updHall_hall]
      split
      · next heq => rw [heq]
      · rfl
  have htemp : ((s.shown t).hall ph).pwr.temp = BitVec.ofNat 8 (min y 255) := by
    refine foldl_establishes (fun u : State => (u.hall ph).pwr.temp = BitVec.ofNat 8 (min y 255)) hph (fun u => ?_)
      (fun u hu x hx => ?_) _
    · simp [State.showTemp]
    · obtain ⟨q, z⟩ := x
      by_cases hq : ph = q
      · subst hq
        obtain ⟨-, hy, -⟩ := s.mem_hallReadings.1 hph
        obtain ⟨-, hz, -⟩ := s.mem_hallReadings.1 hx
        simp [State.showTemp, Option.some.inj (hy.symm.trans hz)]
      · simpa [State.showTemp, State.updHall_hall, hq] using hu
  obtain ⟨hst, hreg⟩ := Prod.mk.inj hst
  exact Prod.ext hst (Prod.ext hreg htemp)

theorem State.get_arcadeTemps {m : SMap Nat} {t : Temps} {a y : Nat} (ha : a < arcadesOf s.cfg.grade) (hy : t.arcades[a]? = some y) :
    SMap.get 0 (arcadeTemps m (s.arcadeReadings t)) a = y := by
  have hmem : (64 + a, y) ∈ s.arcadeReadings t :=
    s.mem_arcadeReadings.2 ⟨by omega, by rwa [Nat.add_sub_cancel_left], by rwa [Nat.add_sub_cancel_left]⟩
  refine foldl_establishes (fun m : SMap Nat => SMap.get 0 m a = y) hmem (fun m => ?_) (fun m hm x hx => ?_) m
  · simp
  · obtain ⟨n, z⟩ := x
    rw [SMap.get_set]
    split
    · next heq =>
      obtain ⟨-, -, hz⟩ := s.mem_arcadeReadings.1 hx
      subst heq
      exact Option.some.inj (hz.symm.trans hy)
    · exact hm

/-! ### THERMAL_SENSOR_READ and STACK_TEMPERATURE_READ -/

theorem exec_thermalSensorRead {s : State} (hon : s.mainOn = true) (hcomes : Claims.comes s s.pwr.sensorAt) (x : Temps) :
    exec (.thermalSensorRead x) s = .next
      (((s.waitUntil s.pwr.sensorAt).shown x).telemetry.trip ((s.waitUntil s.pwr.sensorAt).readings x)) := by
  have hnow : ¬ (s.waitUntil s.pwr.sensorAt).now < s.pwr.sensorAt := by
    rw [s.waitUntil_now _ hcomes]
    omega
  have hstill : (s.waitUntil s.pwr.sensorAt).mainOn = true := by rwa [State.mainOn, State.waitUntil_pwr]
  rw [← State.takeTemps_eq hstill]
  exact congrArg Host.Outcome.next (if_neg hnow)

theorem nextBand_hot {t : Nat} (ht : 95 < t) (band : BitVec 2) : nextBand band t = 2 := by
  have : 93 < t := by omega
  simp [nextBand, ht, this]

theorem nextBand_cold {t : Nat} (ht : t ≤ 83) (band : BitVec 2) : nextBand band t = 0 := by
  have hwarm : ¬ 85 < t := by omega
  have hhot : ¬ 93 < t := by omega
  have hhotter : ¬ 95 < t := by omega
  simp [nextBand, hwarm, hhot, hhotter, Nat.not_lt.2 ht]

theorem nextBand_warm {t : Nat} (hlo : 85 < t) (hhi : t ≤ 93) (band : BitVec 2) : nextBand band t = 1 := by
  have hwarm : 83 < t := by omega
  have hhotter : ¬ 95 < t := by omega
  simp [nextBand, hlo, hwarm, hhotter, Nat.not_lt.2 hhi]

/-- Just above the lower edge a stack stays cold that was, and is warm from above. -/
theorem nextBand_lower {t : Nat} (hlo : 83 < t) (hhi : t ≤ 85) (band : BitVec 2) :
    nextBand band t = if band = 0 then 0 else 1 := by
  have hhot : ¬ 93 < t := by omega
  have hhotter : ¬ 95 < t := by omega
  by_cases hband : band = 0 <;> simp [nextBand, hband, hlo, hhot, hhotter, Nat.not_lt.2 hhi]

/-- Just above the upper edge a stack stays hot that was, and is warm from below. -/
theorem nextBand_upper {t : Nat} (hlo : 93 < t) (hhi : t ≤ 95) (band : BitVec 2) :
    nextBand band t = if band = 2 then 2 else 1 := by
  have hwarm : 83 < t := by omega
  have hwarmer : 85 < t := by omega
  by_cases hband : band = 2 <;> simp [nextBand, hband, hlo, hwarm, hwarmer, Nat.not_lt.2 hhi]

/-- The state at the next tread of stack readings, with the temperature of stack `c` read. -/
def State.stackRead (s : State) (c temp : Nat) : State :=
  (s.waitUntil ((s.now + 16383) / 16384 * 16384)).updMc c (fun m => { m with temp, band := nextBand m.band temp })

theorem exec_stackTemperatureRead {s : State} {c : Fin 14} (hstack : s.hasStack c.val = true) (hon : s.mainOn = true) (temp : Nat) :
    exec (.stackTemperatureRead c temp) s = .next ((s.stackRead c.val temp).trip [(70 + siteOfStack c.val, temp)]) := by
  change execStackTemperatureRead c temp s = _
  simp only [execStackTemperatureRead, hstack, hon, Bool.not_true, Bool.false_eq_true, if_false]
  rfl

theorem State.stackRead_mc (c temp d : Nat) : (s.stackRead c temp).mc d =
    if d = c then { s.mc c with temp, band := nextBand (s.mc c).band temp } else s.mc d := by
  have hmc (k : Nat) : (s.waitUntil ((s.now + 16383) / 16384 * 16384)).mc k = s.mc k :=
    congrArg (fun mcs => SMap.get ({} : MemCtl) mcs k) (State.waitUntil_mcs ..)
  rw [State.stackRead, State.updMc_mc, hmc, hmc]

theorem State.stackRead_now {s : State} (hrun : s.clk.running = true) (hlt : (s.now + 16383) / 16384 * 16384 < 2 ^ 64) (c temp : Nat) :
    (s.stackRead c temp).now = (s.now + 16383) / 16384 * 16384 :=
  (s.waitUntil_now _ (.inr ⟨hrun, hlt⟩)).trans (by omega)

/-- Settles O53: the readings of a hall and of an arcade are of that unit alone, so each register shows its own; a trip stops main power
for a reading that is hot, and the bands of a stack follow the edges with their hysteresis. -/
theorem temperaturesBandsAndTrips : Obligations.TemperaturesBandsAndTrips := by
  unfold Obligations.TemperaturesBandsAndTrips
  refine fun s hon => ⟨fun hcomes x hcool => ?cool, fun hcomes x hhot => ?hot,
    fun c temp hstack hrun hlt => ⟨fun hcool => ?band, fun hhot => ?trip⟩⟩
  case cool =>
    have hexec := exec_thermalSensorRead hon hcomes x
    have hnow := s.waitUntil_now _ hcomes
    have hpwr := s.waitUntil_pwr s.pwr.sensorAt
    have hmem := s.waitUntil_mem s.pwr.sensorAt
    have hcfg := s.waitUntil_cfg s.pwr.sensorAt
    have hhall := s.waitUntil_hall s.pwr.sensorAt
    generalize s.waitUntil s.pwr.sensorAt = u at hexec hnow hpwr hmem hcfg hhall
    rw [State.trip_of_cool _ (u.readings_cool hcool)] at hexec
    have hsensed := (State.telemetry_sensed _).trans (u.shown_sensed x)
    simp only [State.sensed, Prod.mk.injEq] at hsensed
    obtain ⟨tstate, tatrium, tat, tarcades, tclk, tmem⟩ := hsensed
    have tnow : (u.shown x).telemetry.now = u.now := congrArg (·.tread.toNat) tclk
    refine ⟨_, hexec, ?_, by rw [tat, tnow], tatrium, by rw [tstate, hpwr], by rw [tmem, hmem], fun ph y hph hy hst => ?_,
      fun a y ha hy => ?_⟩
    · rw [tnow, hnow]
      exact Nat.le_max_right ..
    · rw [← hhall] at hst
      have hsensed := (State.telemetry_hallSensed _ ph).trans (u.shown_hall (u.mem_hallReadings.2 ⟨hph, hy, hst⟩))
      simp only [State.hallSensed, Prod.mk.injEq] at hsensed
      obtain ⟨tst, treg, ttemp⟩ := hsensed
      have hy110 : y < 110 := hcool y (by simp [List.mem_of_getElem? hy])
      rw [ttemp, tst, treg, hhall, Nat.min_eq_left (by omega)]
      exact ⟨rfl, rfl, rfl⟩
    · rw [tarcades]
      exact u.get_arcadeTemps (hcfg ▸ ha) hy
  case hot =>
    have hexec := exec_thermalSensorRead hon hcomes x
    have hpwr := s.waitUntil_pwr s.pwr.sensorAt
    have hcfg := s.waitUntil_cfg s.pwr.sensorAt
    have hhall := s.waitUntil_hall s.pwr.sensorAt
    generalize s.waitUntil s.pwr.sensorAt = u at hexec hpwr hcfg hhall
    simp only [← hcfg, ← hhall] at hhot
    have hstate : (u.shown x).telemetry.pwr.state = 3 := by
      rw [(Prod.mk.inj ((State.telemetry_sensed _).trans (u.shown_sensed x))).1, hpwr]
      exact of_decide_eq_true hon
    obtain ⟨⟨n, y⟩, hmem, hy, hstop⟩ := State.trip_of_hot hstate (u.readings_hot hhot)
    exact ⟨_, n, y, hexec, hstop.state, hstop.evtCause, hstop.evtSource, hy, u.source_of_reading hmem⟩
  case band =>
    have hexec := exec_stackTemperatureRead hstack hon temp
    rw [State.trip_of_cool _ (by simpa using hcool)] at hexec
    have hmc := s.stackRead_mc c.val temp
    refine ⟨_, hexec, State.stackRead_now hrun hlt .., ?_, fun d hd => ?_, ?_, ?_⟩
    · rw [hmc, if_pos rfl]
    · rw [hmc, if_neg hd]
    · rw [State.stackRead, State.updMc_mem, State.waitUntil_mem]
    · rw [hmc, if_pos rfl]
      exact ⟨fun hlo => nextBand_hot hlo _, fun hhi => nextBand_cold hhi _, fun hlo hhi => nextBand_warm hlo hhi _,
        fun hlo hhi => nextBand_lower hlo hhi _, fun hlo hhi => nextBand_upper hlo hhi _⟩
  case trip =>
    have hstate : (s.stackRead c.val temp).pwr.state = 3 := by
      rw [State.stackRead, State.updMc_pwr, State.waitUntil_pwr]
      exact of_decide_eq_true hon
    obtain ⟨x, hmem, -, hstop⟩ := State.trip_of_hot hstate ⟨(70 + siteOfStack c.val, temp), List.mem_singleton_self _, hhot⟩
    obtain rfl := List.mem_singleton.1 hmem
    exact ⟨_, exec_stackTemperatureRead hstack hon temp, hstop.state, hstop.evtCause, hstop.evtSource⟩

end Sys2Proof.Machine

/-! # Supplies and the rise of main power (13 R510 to R514)

A crossing of a threshold changes the range of its supply; then the part stops, is reset, or rises. MAIN_ON writes the records that
waited and trains every link that may: each training puts its own link in full training and keeps every other link's phase, and with
main on no record waits. Both supplies out of range is a part reset by log 58.
-/
namespace Sys2Proof.Machine

variable (s : State)

/-! ### Rising and the end of a stop (R512) -/

theorem State.endStopping_of_not_stopping {s : State} (hstate : s.pwr.state ≠ 4) : s.endStopping = s := if_neg hstate

theorem State.riseMain_of_ready {s : State} (hstate : s.pwr.state = 1) (h54 : s.pwr.in54 = true) (hmain : s.pwr.main = true)
    (hboot : s.sec.boot = 2) (hrec : s.sec.noRecord = false) (hrun : s.clk.running = true) :
    s.riseMain = { s with pwr := { s.pwr with state := 2 } } := by
  simp [State.riseMain, hstate, h54, hmain, hboot, hrec, hrun]

/-- Main power rises from standby alone. -/
theorem State.riseMain_of_not_standby {s : State} (hstate : s.pwr.state ≠ 1) : s.riseMain = s :=
  if_neg (by rw [decide_eq_false hstate]; simp)

theorem State.riseMain_of_no_supply {s : State} (h54 : s.pwr.in54 = false) : s.riseMain = s :=
  if_neg (by simp [h54])

/-! ### SUPPLY_THRESHOLD_CROSSING (R510, R511) -/

/-- The state with 54 V at a level that puts it in range or out of it. -/
def State.at54 (s : State) (in54 : Bool) (mv : Nat) : State := { s with pwr := { s.pwr with in54, v54 := mv } }

section Crossing

variable {s} {mv : Nat} {in54 : Bool} (hlevel : inRange 47000 45000 62000 61000 s.pwr.in54 s.pwr.v54 mv = in54)

include hlevel

theorem exec_crossing54_stays (hsupplied : in54 = true ∨ s.pwr.in12 = true) (hkept : s.pwr.in54 = true → in54 = true) :
    exec (.supplyThresholdCrossing .v54 mv) s = .next (s.at54 in54 mv).endStopping.riseMain := by
  have hon : ¬ (!in54 && !s.pwr.in12) = true := by rcases hsupplied with h | h <;> simp [h]
  have hsame : ¬ (s.pwr.in54 && !in54) = true := by
    intro hlost
    rw [Bool.and_eq_true] at hlost
    simp [hkept hlost.1] at hlost
  subst hlevel
  exact congrArg Host.Outcome.next ((if_neg hon).trans (if_neg hsame))

/-- 54 V goes out of range while the standby domain is fed by 12 V. -/
theorem exec_crossing54_stops (hwas : s.pwr.in54 = true) (hout : in54 = false) (h12 : s.pwr.in12 = true) :
    exec (.supplyThresholdCrossing .v54 mv) s = .next ((s.at54 false mv).mainStop (if mv < 45000 then 1 else 2) 0) := by
  subst hout
  have hon : ¬ (!false && !s.pwr.in12) = true := by simp [h12]
  have hlost : (s.pwr.in54 && !false) = true := by simp [hwas]
  rw [← hlevel] at hon hlost ⊢
  exact congrArg Host.Outcome.next ((if_neg hon).trans (if_pos hlost))

/-- The last supply goes out of range. -/
theorem exec_crossing54_resets (hwas : s.pwr.in54 = true) (hout : in54 = false) (h12 : s.pwr.in12 = false) :
    exec (.supplyThresholdCrossing .v54 mv) s = .next (s.at54 false mv).partReset := by
  subst hout
  have hoff : (!false && !s.pwr.in12) = true := by simp [h12]
  have hfed : (s.pwr.in54 || s.pwr.in12) = true := by simp [hwas]
  rw [← hlevel] at hoff ⊢
  exact congrArg Host.Outcome.next ((if_pos hoff).trans (if_pos hfed))

end Crossing

/-- With 54 V in range a level of 12 V changes its own range alone. -/
theorem exec_crossing12 {s : State} (h54 : s.pwr.in54 = true) (mv : Nat) : exec (.supplyThresholdCrossing .v12 mv) s =
    .next ({ s with pwr := { s.pwr with
      in12 := inRange 11000 10500 13500 13200 s.pwr.in12 s.pwr.v12 mv, v12 := mv } } : State).endStopping.riseMain := by
  have hon : ¬ (!s.pwr.in54 && !inRange 11000 10500 13500 13200 s.pwr.in12 s.pwr.v12 mv) = true := by simp [h54]
  have hkept : ¬ (s.pwr.in54 && !s.pwr.in54) = true := by simp
  exact congrArg Host.Outcome.next ((if_neg hon).trans (if_neg hkept))

/-- A part reset leaves standby, the flash, and the queues as after reset. -/
theorem State.partReset_fields : s.partReset.pwr.state = 1 ∧ s.partReset.sec.boot = 0 ∧ s.partReset.queues = State.reset.queues
    ∧ s.partReset.sec.flash = s.sec.flash ∧ s.partReset.slices = [] := ⟨rfl, rfl, rfl, rfl, rfl⟩

/-! ### With main on no record waits (12 R486) -/

/-- Main power is on and no record waits for it. -/
def State.Flushed (s : State) : Prop := s.pwr.state = 3 ∧ s.flt.waiting = []

theorem State.Flushed.congr {s t : State} (h : s.Flushed) (hpwr : t.pwr = s.pwr) (hflt : t.flt = s.flt) : t.Flushed := by
  rwa [State.Flushed, hpwr, hflt]

theorem State.writeRecord_waiting {s : State} (hon : s.mainOn = true) (r : FRec) : (s.writeRecord r).flt.waiting = s.flt.waiting := by
  unfold State.writeRecord
  simp only [hon, if_true]
  rw [State.each_keeps (F := State.flt)]
  · rfl
  · intro t k
    split <;> rfl

theorem State.Flushed.writeRecord {s : State} (h : s.Flushed) (r : FRec) : (s.writeRecord r).Flushed := by
  obtain ⟨hstate, hwaiting⟩ := h
  have hpwr : (s.writeRecord r).pwr = s.pwr := by have h := congrArg State.pwr (s.writeRecord_sans r); exact h
  exact ⟨hpwr ▸ hstate, (State.writeRecord_waiting (decide_eq_true hstate) r).trans hwaiting⟩

theorem State.Flushed.crossing {s : State} (h : s.Flushed) (k : Nat) : (s.crossing k).1.Flushed := by
  unfold State.crossing
  dsimp only
  split <;> split <;> exact h

theorem State.Flushed.setErr {s : State} (h : s.Flushed) (k c : Nat) : (s.setErr k c).Flushed := by
  unfold State.setErr
  split <;> exact h

theorem State.Flushed.raise {s : State} (h : s.Flushed) (r : FRec) : (s.raise r).Flushed := by
  have hset : (s.each r.errs (fun s k => s.setErr k r.cls)).Flushed :=
    s.each_inv State.Flushed _ _ (fun t k ht => ht.setErr k r.cls) h
  unfold State.raise
  dsimp only
  split
  · exact hset.writeRecord r
  · split
    · exact (hset.crossing _).writeRecord r
    · exact hset.crossing _

theorem State.Flushed.notice {s : State} (h : s.Flushed) (kind : Byte) (detail : Word64) (slices : List Nat)
    (rec_ : Option (BitVec 512)) : (s.notice kind detail slices rec_).Flushed := by
  have hsans := s.notice_sans kind detail slices rec_
  have hpwr := congrArg State.pwr hsans
  have hflt := congrArg State.flt hsans
  exact h.congr hpwr hflt

/-! ### The links train (09 R402) -/

/-- The phase of link `l`. -/
def State.phase (s : State) (l : Nat) : LinkPhase := (s.link l).phase

theorem State.phase_congr {s t : State} (hlinks : t.links = s.links) (l : Nat) : t.phase l = s.phase l := by
  rw [State.phase, State.link_congr hlinks, State.phase]

/-- From `s` to `t` no link changes its phase, and with main on no record is left waiting. -/
structure State.Steady (s t : State) : Prop where
  phase : ∀ l, t.phase l = s.phase l
  flushed : s.Flushed → t.Flushed

theorem State.Steady.trans {s t u : State} (hst : s.Steady t) (htu : t.Steady u) : s.Steady u :=
  ⟨fun l => (htu.phase l).trans (hst.phase l), fun h => htu.flushed (hst.flushed h)⟩

theorem State.steady_congr {s t : State} (hlinks : t.links = s.links) (hpwr : t.pwr = s.pwr) (hflt : t.flt = s.flt) : s.Steady t :=
  ⟨State.phase_congr hlinks, fun h => h.congr hpwr hflt⟩

theorem State.steady_refl : s.Steady s := State.steady_congr rfl rfl rfl

theorem State.steady_each {α : Type} (l : List α) {f : State → α → State} (h : ∀ (t : State) a, t.Steady (f t a)) :
    s.Steady (s.each l f) :=
  s.each_inv s.Steady l f (fun t a ht => ht.trans (h t a)) s.steady_refl

theorem State.updLink_phase (l : Nat) (f : Link → Link) (m : Nat) :
    (s.updLink l f).phase m = if m = l then (f (s.link l)).phase else s.phase m := by
  rw [State.phase, State.updLink_link]
  split <;> rfl

/-- A link may change in anything but its phase. -/
theorem State.steady_updLink (l : Nat) {f : Link → Link} (hf : (f (s.link l)).phase = (s.link l).phase) : s.Steady (s.updLink l f) where
  phase m := by
    rw [State.updLink_phase]
    split
    · next heq => rw [hf, heq, State.phase]
    · rfl
  flushed h := h

theorem State.steady_returnCredit (c : Nat) (isS : Bool) : s.Steady (s.returnCredit c isS) := by
  have hctx (f : Ctx → Ctx) : s.Steady (s.updCtx c f) := State.steady_congr rfl rfl rfl
  unfold State.returnCredit
  exact (hctx _).trans (State.steady_updLink _ _ rfl)

theorem State.steady_freeBay (p b : Nat) : s.Steady (s.freeBay p b) := by
  have hbay : s.Steady (s.updBay (p * 128 + b) (fun _ => {})) := State.steady_congr rfl rfl rfl
  unfold State.freeBay
  dsimp only
  split
  · exact hbay
  · exact hbay.trans (State.steady_returnCredit ..)

theorem State.steady_leaveBay (p b : Nat) (rel : Bool) : s.Steady (s.leaveBay p b rel) := by
  have hbay (f : Bay → Bay) : s.Steady (s.updBay (p * 128 + b) f) := State.steady_congr rfl rfl rfl
  unfold State.leaveBay
  dsimp only
  split
  · exact (hbay _).trans (State.steady_freeBay ..)
  · exact hbay _

theorem State.steady_killCtx (c : Nat) : s.Steady (s.killCtx c) := by
  have hctx (f : Ctx → Ctx) : s.Steady (s.updCtx c f) := State.steady_congr rfl rfl rfl
  unfold State.killCtx
  exact (hctx _).trans (State.steady_each _ _ fun t j => t.steady_leaveBay ..)

theorem State.steady_finishXfer (h : DescHdr) (op : Byte) (d : DmaDesc) (st : BitVec 16) (x : Word64) (c : Option Word64) :
    s.Steady (s.finishXfer h op d st x c) := by
  have hsans := s.finishXfer_sans h op d st x c
  have hlinks := congrArg State.links hsans
  have hpwr := congrArg State.pwr hsans
  have hflt := congrArg State.flt hsans
  exact State.steady_congr hlinks hpwr hflt

theorem State.steady_failStorage (p : Nat) : s.Steady (s.failStorage p) := by
  have hfoyer (f : Foyer) : s.Steady { s with foyer := f } := State.steady_congr rfl rfl rfl
  have hshow (t : State) (n : Nat) : t.Steady (t.showRange n) := State.steady_congr rfl rfl rfl
  unfold State.failStorage
  exact ((hfoyer _).trans (State.steady_updLink _ _ rfl)).trans
    (State.steady_each _ _ fun t j => (hshow t j.hid).trans (State.steady_finishXfer ..))

theorem State.steady_raiseNotice (r : FRec) (kind : Byte) (detail : Word64) (slices : List Nat) :
    s.Steady (s.raiseNotice r kind detail slices) := by
  have hlinks := congrArg State.links (s.raiseNotice_sans r kind detail slices)
  exact ⟨State.phase_congr hlinks, fun h => (h.raise r).notice ..⟩

theorem State.steady_linkDead (l : Nat) : s.Steady (s.linkDead l) := by
  unfold State.linkDead
  extract_lets live r noticed emptied dropped
  have hnoticed : s.Steady noticed := by
    unfold noticed
    split
    · exact s.steady_refl
    · exact s.steady_raiseNotice ..
  have hemptied : noticed.Steady emptied := State.steady_updLink _ _ rfl
  have hdropped : emptied.Steady dropped := State.steady_each _ _ fun t c => t.steady_killCtx c
  have hsteady : s.Steady dropped := (hnoticed.trans hemptied).trans hdropped
  clear_value dropped
  split
  · exact hsteady.trans (dropped.steady_failStorage _)
  · exact hsteady

/-- The state in which link `l` has left its session for full training. -/
def State.sessionLeft (s : State) (l : Nat) : State :=
  s.updLink l (fun x => { (x.endPause s.now) with phase := .full, kept := false })

/-- Once the link has left its session, the rest of a training changes no phase. -/
theorem State.steady_startFull (l : Nat) : (s.sessionLeft l).Steady (s.startFull l) := by
  have habandoned : (s.sessionLeft l).Steady
      ((s.sessionLeft l).each ((s.sessionLeft l).linkPorts l) (fun s p => s.updPort p Port.abandon)) :=
    State.steady_each _ _ fun _ _ => State.steady_congr rfl rfl rfl
  exact (habandoned.trans (State.steady_linkDead _ l)).trans (State.steady_updLink _ l rfl)

/-- A training puts its own link in full training and leaves the phase of every other. -/
theorem State.startFull_phase (l m : Nat) : (s.startFull l).phase m = if m = l then .full else s.phase m :=
  ((s.steady_startFull l).phase m).trans (s.updLink_phase ..)

theorem State.Flushed.startFull {s : State} (h : s.Flushed) (l : Nat) : (s.startFull l).Flushed :=
  (s.steady_startFull l).flushed h

theorem State.trainAll_phase {l : Nat} (hl : l < 60) (htrain : s.mayTrain (l / 2) (l % 2) = true) : s.trainAll.phase l = .full := by
  refine State.each_establishes _ (fun t => t.phase l = .full) (List.mem_filter.2 ⟨List.mem_range.2 hl, htrain⟩) (fun t => ?_)
    (fun t m ht => ?_)
  · rw [State.startFull_phase, if_pos rfl]
  · rw [State.startFull_phase]
    split
    · rfl
    · exact ht

theorem State.Flushed.trainAll {s : State} (h : s.Flushed) : s.trainAll.Flushed :=
  s.each_inv State.Flushed _ _ (fun _ l ht => ht.startFull l) h

/-! ### MAIN_ON (R512) -/

/-- The state with main power on and the records that waited in the ring. -/
def State.risen (s : State) : State := ({ s with pwr := { s.pwr with state := 3 } } : State).flushRecords

theorem State.flushRecords_frame : { s.flushRecords with mem := s.mem, undef := s.undef, flt := s.flt } = s :=
  s.each_keeps (fun t => { t with mem := s.mem, undef := s.undef, flt := s.flt }) s.flt.waiting
    (fun t e => t.writeBytes (t.ringAddr e.1) (bvBytes 64 e.2)) fun _ _ => rfl

theorem State.flushed_risen : s.risen.Flushed := by
  have hpwr := congrArg State.pwr (State.flushRecords_frame { s with pwr := { s.pwr with state := 3 } })
  have hstate := congrArg Pwr.state hpwr
  exact ⟨hstate, rfl⟩

theorem State.risen_mayTrain (p h : Nat) : s.risen.mayTrain p h = s.mayTrain p h := by
  have hframe := State.flushRecords_frame { s with pwr := { s.pwr with state := 3 } }
  have htrain := congrArg (fun t : State => t.mayTrain p h) hframe
  exact htrain

theorem State.bootDone_frame : { s.bootDone with sec := s.sec } = s := by
  unfold State.bootDone
  split <;> rfl

theorem State.bootDone_healthSet : s.bootDone.sec.healthSet = true := by
  unfold State.bootDone
  split
  · assumption
  · rfl

theorem State.complete_healthSet (n : Nat) (e : Entry) (irq : Bool) : (s.complete n e irq).sec.healthSet = s.sec.healthSet := by
  have hvector (t : State) (q : Nat) : (t.vector q).sec = t.sec := by
    unfold State.vector
    split <;> rfl
  have halerted (t : State) : (t.alerted n e).sec.healthSet = t.sec.healthSet := by
    unfold State.alerted
    split <;> rfl
  rw [State.complete_eq]
  generalize s.entryBytes n e = bs
  split
  · rfl
  · split
    · rw [hvector, halerted]
      rfl
    · rw [halerted]
      rfl

theorem State.notice_healthSet (kind : Byte) (detail : Word64) (slices : List Nat) (rec_ : Option (BitVec 512)) :
    (s.notice kind detail slices rec_).sec.healthSet = s.sec.healthSet := by
  refine s.each_keeps (fun t => t.sec.healthSet) _ _ fun t n => ?_
  unfold State.noticeOn
  dsimp only
  split
  · rfl
  · split
    · rfl
    · exact State.complete_healthSet ..

/-- A report of the halls' health changes what a notice changes, and ATR_HEALTH. -/
theorem State.reportHealth_sans (rec_ : Option (BitVec 512)) : (s.reportHealth rec_).sansEntry = s.sansEntry := by
  unfold State.reportHealth
  split
  · rfl
  · dsimp only
    split
    · rfl
    · exact (State.notice_sans ..).trans rfl

theorem State.reportHealth_healthSet (rec_ : Option (BitVec 512)) : (s.reportHealth rec_).sec.healthSet = s.sec.healthSet := by
  unfold State.reportHealth
  split
  · rfl
  · dsimp only
    split
    · rfl
    · exact State.notice_healthSet ..

/-- The state that MAIN_ON leaves, before register reads see it. -/
def State.mainRisen (s : State) : State := s.risen.trainAll.bootDone.reportHealth none

theorem exec_mainOn {s : State} (hstate : s.pwr.state = 2) : exec .mainOn s = .next s.mainRisen.publish := by
  have hnot : s.pwr.state ≠ 4 := by simp [hstate]
  change execMainOn s = _
  rw [execMainOn, State.endStopping_of_not_stopping hnot]
  exact congrArg Host.Outcome.next (if_pos hstate)

theorem State.mainRisen_sans : s.mainRisen.sansEntry = s.risen.trainAll.sansEntry := by
  have hdone := congrArg State.sansEntry s.risen.trainAll.bootDone_frame
  exact (State.reportHealth_sans ..).trans hdone

theorem State.flushed_mainRisen : s.mainRisen.Flushed := by
  have hpwr := congrArg State.pwr s.mainRisen_sans
  have hflt := congrArg State.flt s.mainRisen_sans
  exact s.flushed_risen.trainAll.congr hpwr hflt

theorem State.mainRisen_healthSet : s.mainRisen.sec.healthSet = true :=
  (State.reportHealth_healthSet ..).trans (State.bootDone_healthSet _)

theorem State.mainRisen_phase {l : Nat} (hl : l < 60) (htrain : s.mayTrain (l / 2) (l % 2) = true) : s.mainRisen.phase l = .full := by
  have hlinks : s.mainRisen.links = s.risen.trainAll.links := by
    have h := congrArg State.links s.mainRisen_sans
    exact h
  rw [State.phase_congr hlinks]
  exact s.risen.trainAll_phase hl (by rwa [State.risen_mayTrain])

/-! ### PWR_CTL (R514) -/

/-- The state with PWR_CTL.main as given. -/
def State.mainSet (s : State) (main : Bool) : State := { s with pwr := { s.pwr with main } }

/-- A 0 is refused while a slice is admitted. -/
theorem exec_pwrCtl_refused {s : State} {v : Word} (hv : v.getLsbD 0 = false) (hadm : s.admitted ≠ []) :
    exec (.pwrCtlMainWrite v) s = .next (s.raise { cause := 0x0117, detail := v ++ 0x30004#32 }) := by
  have hrefused : s.wrPwrCtl v = none :=
    (if_neg (Bool.eq_false_iff.1 hv)).trans (if_neg (by simp [hadm]))
  change Host.Outcome.next (s.barWrite 0x30004 v (s.wrPwrCtl v)) = _
  rw [hrefused]
  rfl

theorem exec_pwrCtl_stops {s : State} {v : Word} (hv : v.getLsbD 0 = false) (hadm : s.admitted = []) :
    exec (.pwrCtlMainWrite v) s = .next ((s.mainSet false).mainStop 4 0) := by
  have htaken : s.wrPwrCtl v = some ((s.mainSet false).mainStop 4 0) :=
    (if_neg (Bool.eq_false_iff.1 hv)).trans (if_pos (by simp [hadm]))
  change Host.Outcome.next (s.barWrite 0x30004 v (s.wrPwrCtl v)) = _
  rw [htaken]
  rfl

theorem exec_pwrCtl_asks {s : State} {v : Word} (hv : v.getLsbD 0 = true) : exec (.pwrCtlMainWrite v) s =
    .next (s.mainSet true).riseMain := by
  have htaken : s.wrPwrCtl v = some (s.mainSet true).riseMain :=
    if_pos hv
  change Host.Outcome.next (s.barWrite 0x30004 v (s.wrPwrCtl v)) = _
  rw [htaken]
  rfl

/-- Settles O50: a crossing leaves one of four states by the ranges before and after it, MAIN_ON trains every link that may, and each
cause of a stop is the one stop of main power. -/
theorem suppliesAndMainPower : Obligations.SuppliesAndMainPower := by
  unfold Obligations.SuppliesAndMainPower
  refine fun s => ⟨fun mv in54 hlevel => ⟨?rises, ?stays, ?lost, ?dark⟩, ?twelve, ?mainOn, ?stop, ?refused, ?asked⟩
  case rises =>
    intro hstate hin hmain hboot hrec hrun
    rw [exec_crossing54_stays hlevel (.inl hin) (fun _ => hin), State.endStopping_of_not_stopping (by simp [State.at54, hstate]),
      State.riseMain_of_ready (s := s.at54 in54 mv) hstate hin hmain hboot hrec hrun]
    rfl
  case stays =>
    intro hstate hsame hfed
    rw [exec_crossing54_stays hlevel hfed (fun h => hsame ▸ h), State.endStopping_of_not_stopping (by simp [State.at54, hstate]),
      State.riseMain_of_not_standby (by simp [State.at54, hstate])]
    rfl
  case lost =>
    intro hstate hwas hout h12
    have hstop := State.stopped_mainStop (s := s.at54 false mv) hstate (if mv < 45000 then 1 else 2) 0
    exact ⟨_, exec_crossing54_stops hlevel hwas hout h12, hstop.state, hstop.in54, hstop.evtCause, hstop.evtCount, hstop.lost.slices,
      hstop.lost.flights, hstop.alert⟩
  case dark =>
    intro hwas hout h12
    exact ⟨_, exec_crossing54_resets hlevel hwas hout h12, (s.at54 false mv).partReset_fields⟩
  case twelve =>
    intro mv hstate h54
    rw [exec_crossing12 h54, State.endStopping_of_not_stopping (by simp [hstate]), State.riseMain_of_not_standby (by simp [hstate])]
  case mainOn =>
    intro hstate
    obtain ⟨hon, hwaiting⟩ := s.flushed_mainRisen
    exact ⟨_, exec_mainOn hstate, hon, hwaiting, s.mainRisen_healthSet, fun l hl htrain => s.mainRisen_phase hl htrain⟩
  case stop =>
    rintro c cause hcause hstate
    have hstops : ∃ main, exec c s = .next ((s.mainSet main).mainStop cause 0) := by
      rcases hcause with ⟨rfl, rfl⟩ | ⟨⟨v, hv, rfl⟩, rfl, hadm⟩
      · exact ⟨s.pwr.main, rfl⟩
      · exact ⟨false, exec_pwrCtl_stops hv hadm⟩
    obtain ⟨main, hexec⟩ := hstops
    have hstop := State.stopped_mainStop (s := s.mainSet main) hstate cause 0
    obtain ⟨slices, flights, links, ports, ctxs, bays, mcs, relays, stair, linkmap, cfg, clk, halls, hbm⟩ := hstop.lost
    exact ⟨_, hexec, hstop.state, hstop.evtCause, hstop.evtCount, slices, flights, links, ports, ctxs, bays, mcs, relays, stair,
      linkmap, hstop.alert, cfg, clk, halls, hbm⟩
  case refused => exact fun v hv hadm => exec_pwrCtl_refused hv hadm
  case asked =>
    intro v hv hstill
    have hstands : (s.mainSet true).riseMain = s.mainSet true := by
      rcases hstill with hstate | h54
      · exact State.riseMain_of_not_standby (by simp [State.mainSet, hstate])
      · exact State.riseMain_of_no_supply h54
    rw [exec_pwrCtl_asks hv, hstands]
    rfl

end Sys2Proof.Machine

/-! # Waits for TB3 (14 R558), and the statements that lack a bound on the tick's fraction

`Clk.frac` is the part of an oscillator tick, in eighths, that has passed since the last tick of TB3. `State.passTreads` always leaves it
below 8, and from there a wait ends at the TB3 waited for. A statement over every `State` also speaks of fractions that hold whole ticks,
which the next wait adds to TB3: 2^67 eighths are 2^64 ticks, a full turn of the counter. O54 and O58 each say of one wait that TB3 has
come after it, without a bound on the fraction.
-/
namespace Sys2Proof.Machine

variable (s : State)

/-- A wait adds the ticks that it lacks, or the whole ticks that the fraction already holds where those are more. -/
theorem State.waitTb3_tb3 (t : Nat) : (s.waitTb3 t).clk.tb3 =
    if s.clk.tb3.toNat < t then s.clk.tb3 + BitVec.ofNat 64 (max (t - s.clk.tb3.toNat) (s.clk.frac / 8)) else s.clk.tb3 := by
  unfold State.waitTb3
  dsimp only
  split
  · have hticks (lack : Nat) : (s.clk.frac + 5 * ((8 * lack - s.clk.frac + 4) / 5)) / 8 = max lack (s.clk.frac / 8) := by omega
    rw [← hticks]
    rfl
  · rfl

/-- With less than a tick in the fraction, a wait for a TB3 that lies ahead ends at it. -/
theorem State.waitTb3_reaches {s : State} (hfrac : s.clk.frac < 8) {t : Nat} (hahead : s.clk.tb3.toNat < t) (ht : t < 2 ^ 64) :
    (s.waitTb3 t).clk.tb3.toNat = t := by
  rw [State.waitTb3_tb3, if_pos hahead, Nat.div_eq_of_lt hfrac, Nat.max_zero, BitVec.toNat_add, BitVec.toNat_ofNat]
  omega

/-- With a full turn of TB3 in the fraction, a wait leaves TB3 where it was. -/
theorem State.waitTb3_stands {s : State} (hfrac : s.clk.frac = 2 ^ 67) {t : Nat} (ht : t < 2 ^ 64) :
    (s.waitTb3 t).clk.tb3 = s.clk.tb3 := by
  rw [State.waitTb3_tb3]
  split
  · have hturn : max (t - s.clk.tb3.toNat) (s.clk.frac / 8) = 2 ^ 64 := by omega
    rw [hturn]
    exact BitVec.add_zero _
  · rfl

/-- The steps of boot that follow the reference take no time. -/
theorem State.boot8_clk : s.boot8.clk = s.clk := by
  unfold State.boot8
  split
  · have h := congrArg State.clk s.bootDone_frame
    exact h
  · unfold State.riseMain
    split <;> rfl

/-- BOOT_REFERENCE_TIMEOUT takes the time of its wait, and starts TREAD at 0. -/
theorem clk_of_exec_bootReferenceTimeout {s t : State} (hboot : s.sec.boot = 2) (hrun : s.clk.running = false)
    (h : exec .bootReferenceTimeout s = .next t) :
    t.clk = { (s.waitTb3 (s.clk.tb3.toNat + 100000000)).clk with tread := 0, running := true } := by
  have hwaits : ¬ (decide (s.sec.boot ≠ 2) || s.clk.running) = true := by simp [hboot, hrun]
  change execBootReferenceTimeout s = _ at h
  rw [execBootReferenceTimeout, if_neg hwaits, Host.Outcome.next.injEq] at h
  rw [← h, State.boot8_clk, State.raise_clk]
  rfl

theorem State.endPresence_clk (st : Byte) : (s.endPresence st).clk = s.clk := rfl

/-- PRESENCE_TIMEOUT takes the time of its wait. -/
theorem clk_of_exec_presenceTimeout {s t : State} (hpending : s.sec.presence ≠ 0) (h : exec .presenceTimeout s = .next t) :
    t.clk = (s.waitTb3 (s.sec.presAt + 60000000000)).clk := by
  change execPresenceTimeout s = _ at h
  rw [execPresenceTimeout, if_neg hpending, Host.Outcome.next.injEq] at h
  rw [← h, State.endPresence_clk]

/-- Refutes O54: 100 ms into boot without a reference, a tick's fraction of 2^67 eighths turns TB3 once around and leaves it at 0, not at
10^8 or beyond. `State.waitTb3_reaches` gives the clause where the fraction is below 8. -/
theorem not_referenceTimeBasesAndPulses : ¬ Obligations.ReferenceTimeBasesAndPulses := by
  unfold Obligations.ReferenceTimeBasesAndPulses
  rintro ⟨hreference, -⟩
  obtain ⟨-, -, htimeout⟩ := hreference { clk := { frac := 2 ^ 67 }, sec := { boot := 2 } }
  obtain ⟨t, hexec, -, -, -, -, -, -, -, hcome⟩ := htimeout rfl rfl (by decide)
  have hstands : t.clk.tb3 = 0 := by
    rw [clk_of_exec_bootReferenceTimeout rfl rfl hexec]
    exact State.waitTb3_stands rfl (by decide)
  rw [hstands] at hcome
  exact absurd hcome (by decide)

/-- Refutes O58: 60 s after a presence command at TB3 0, a tick's fraction of 2^67 eighths turns TB3 once around and leaves it at 0, not at
6 × 10^10 or beyond. `State.waitTb3_reaches` gives the clause where the fraction is below 8. -/
theorem not_attestationFirmwareAndPresence : ¬ Obligations.AttestationFirmwareAndPresence := by
  unfold Obligations.AttestationFirmwareAndPresence
  rintro ⟨-, hpresence⟩
  obtain ⟨-, -, -, -, -, htimeout⟩ := hpresence { clk := { frac := 2 ^ 67 }, sec := { presence := 1 } }
  obtain ⟨t, hexec, -, -, hcome, -⟩ := htimeout (by decide) (by decide)
  have hstands : t.clk.tb3 = 0 := by
    rw [clk_of_exec_presenceTimeout (by decide) hexec]
    exact State.waitTb3_stands rfl (by decide)
  rw [hstands] at hcome
  exact absurd hcome (by decide)

end Sys2Proof.Machine

/-! ### The queue of waiting commands -/

namespace Sys2Proof.Machine

/-- A step on a queue that waits takes its front command out and carries it out. -/
theorem step_of_pending_cons {s : State} {c : Instr} {rest : List Instr} (hqueue : s.pending = c :: rest) :
    step s = exec c { s with pending := rest } := by
  rw [step, hqueue]

/-- Settles O1: the queue is given by its front command and its rest, so the step takes its branch for a queue that waits. -/
theorem stepRunsTheFrontCommand : Obligations.StepRunsTheFrontCommand := by
  unfold Obligations.StepRunsTheFrontCommand
  intro s c rest
  exact step_of_pending_cons (s := { s with pending := c :: rest }) rfl

end Sys2Proof.Machine
